-- ==== Sys2Proof/Word.lean ====
section
/-! DEFINITION. The word types of the TF6800 (R6, R245): bytes, 64-bit registers, 128-bit tile instructions, and byte
memories as sorted lists of cells. -/

namespace Sys2Proof

/-- One byte. -/
abbrev Byte := BitVec 8

/-- One register: all registers are 64 bits wide (R10, "Registers"). -/
abbrev Reg := BitVec 64

/-- One tile instruction (R245). -/
abbrev Tile := BitVec 128

/-- A byte memory: cells with strictly rising addresses, no cell equal to 0; an unlisted byte reads as 0. -/
abbrev Mem := List Host.Cell

end Sys2Proof
end

