-- ==== Sys2Proof/Syntax.lean ====
section
/-! DEFINITION. The commands the block takes (spec/opcode_table.json): one constructor for each row, and the facts a
command carries that the spec leaves to other standards, to sensors, to the host or to chance. -/

namespace Sys2Proof

/-- What the codec's standard says of one coded frame once its headers are read (R61, R69, R78, R79, R85, R86): an input of
the model, which does not parse bitstreams. Pictures are named by their place in picture order `order` (POC, order hint) in
H.264 and HEVC; AV1 names them by the reference slot 0 to 7 that holds them. -/
structure UnitFacts where
  parses : Bool               -- some slice, tile, frame or scan header parses (R82)
  unsupported : Bool          -- uses a coding tool outside R61 other than its depth or chroma (R62)
  nonRef : Bool               -- H.264 and HEVC: non-reference picture of R79
  clean : Bool                -- IRAP picture or key frame: decodes without prediction (R84)
  hidden : Bool               -- AV1 frame that is never shown
  showExisting : Bool         -- AV1 frame header that shows the frame of slot `refs[0]` (R69)
  order : Int
  picType : Nat               -- 0 intra, 1 inter single-list, 2 inter bi-predicted (R80)
  width : Nat                 -- decoded luma size
  height : Nat
  depth : Nat                 -- bits of a sample
  format : Nat                -- chroma as coded: 0 none, 1 4:2:0, 2 4:2:2, 3 4:4:4
  baseline : Bool             -- H.264 Constrained Baseline
  level : Nat                 -- H.264 level_idc, 9 for level 1b
  maxDec : Option Nat         -- H.264 max_dec_frame_buffering where the VUI gives it
  refLimit : Nat              -- H.264 max_num_ref_frames; HEVC sps_max_dec_pic_buffering_minus1 of the highest sub-layer (R77)
  reorder : Option Nat        -- max_num_reorder_frames, sps_max_num_reorder_pics (R78)
  latency : Option Nat        -- HEVC: pictures that may precede a waiting one in decode order and follow it in output order
  refs : List Int             -- references the picture needs (R85): list 0 first, LAST_FRAME first
  keepShort : List Int        -- H.264, HEVC: held pictures the marking process leaves short-term
  keepLong : List Int         -- held pictures it leaves long-term
  self : Nat                  -- its own mark: 0 none, 1 REF_SHORT, 2 REF_LONG
  refresh : Nat               -- AV1 refresh_frame_flags
  units : Nat                 -- coding units of the picture
  unitW : Nat                 -- log2 of the unit width and height (R80)
  unitH : Nat
  deriving DecidableEq, Repr

/-- What an engine found when it finished a picture (R80, R82, R87), and what it leaves in the frame buffer. -/
structure DecodeFacts where
  vk : Nat                    -- DECODE_VK
  corrupt : Bool
  byteOffset : Nat
  cuAddr : Nat
  uncovered : List Nat        -- units that no received slice, tile or scan covers
  concealed : List Nat        -- units concealed for corrupt data, in raster order
  luma : List Nat             -- decoded samples, row by row, concealed units as the engine left them
  chroma : List Nat           -- Cb and Cr interleaved, at the coded chroma size
  header : List Byte          -- metadata and saved CDFs, after the 16 B depot header (R74, R384)
  motion : List Byte          -- its motion store (R74)
  deriving DecidableEq, Repr

/-- Where an engine stopped in a picture: the unit of its report, and how many units were covered (R80, R88). -/
structure StopUnits where
  cuAddr : Nat
  covered : Nat
  deriving DecidableEq, Repr

/-- A row-step whose check has failed: its logical row, its first failed cell's column, by how much a fault has changed the
checked quantity, and how many of its recomputes fail again (R156, R157). -/
structure BadStep where
  row : Nat
  column : Nat
  error : Int
  fails : Nat
  deriving DecidableEq, Repr

/-- The facts of a failed residue check (R157): logical rows and columns of the row-steps whose verdicts fell in one ck. -/
structure ResidueFacts where
  word : Nat                  -- schedule ck in which the word entered physical row 0
  rows : List BadStep
  selfTestBad : List Nat      -- logical rows whose self-test failed (R158)
  uncorrectable : Bool        -- the recompute's reread of the weight word meets an error ECC cannot correct (R250, R279)
  deriving DecidableEq, Repr

/-- Sensor readings of one 100 µs step (R473). -/
structure PowerFacts where
  watts : Nat
  tjMax : Nat                 -- hottest junction, °C
  stackTemps : List Nat           -- temperature of each HBM stack, °C
  deriving DecidableEq, Repr

/-- Coolant readings of one sample (R477, R485). -/
structure CoolantFacts where
  inlet : Nat
  outlet : Nat
  pulses : Nat
  leak : Bool
  sensorFault : Bool
  deriving DecidableEq, Repr

/-- What ECC found in the scratchpad and ACM words an instruction reads (R250). -/
structure Ecc where
  corrected : Nat             -- errors corrected
  uncorrectable : Bool        -- an error the code could not correct
  deriving DecidableEq, Repr

/-- How much of a register a write touches (R11). -/
inductive Half where
  | full | low | high
  deriving DecidableEq, Repr

/-- The reader whose line failed (R420, R421). -/
inductive Reader where
  | transfer (core place : Nat)        -- LDT data of a queue place
  | dispatch (part : Nat)              -- a manifest or weight read of the job that would start
  | restore (job : Nat)
  | frame (cls buf off stream serial : Nat)   -- 64 B of a frame buffer, read for this picture by decode, tensorise, crop or encode
  | gather (step : Nat)                -- sequence states
  | mirrored (fn table off : Nat)      -- a function table (0 to 3: queues, streams, clips, routes) or an OVERFLOW depot (4)
  | bar2 (fn addr len : Nat)
  | scrub
  deriving DecidableEq, Repr

/-- What a read met that the code could not correct at once, or corrected (R420, R423, R424). -/
inductive ReadOutcome where
  | corrected
  | retried (tries : Nat) (ck : Nat)   -- recovered; schedule ck at which the data landed, for a transfer
  | lost
  deriving DecidableEq, Repr

/-- Whom a depot buffer is granted to (R387, R390); `none` where the command only meets a bad header (R386). -/
inductive Want where
  | pass (seq : Nat)
  | crop (seq : Nat)
  | gather (step : Nat)
  | none
  deriving DecidableEq, Repr

/-- A fetch that ended in error (R450). -/
inductive FetchErr where
  | entries (queue : Nat)
  | chunk (stream serial received : Nat) (frames : List UnitFacts)   -- what the received bytes hold
  | evidence (queue : Nat)
  deriving DecidableEq, Repr

/-- An SPDM request the device supports (R504). The encoding of SPDM messages is the standard's. -/
inductive SpdmReq where
  | getVersion
  | getCapabilities
  | negotiateAlgorithms
  | getDigests
  | getCertificate (offset length : Nat)
  | challenge (nonce : List Byte)
  | getMeasurements (index : Nat) (nonce : Option (List Byte))
  | unsupported (code : Nat)
  deriving DecidableEq, Repr

/-- The commands, one for each row of the table, in its order. `fn` is the function a host command comes through. -/
inductive Instr where
  | registerWrite (fn offset : Nat) (half : Half) (value : Reg)
  | nop (core : Nat)
  | scalePrefix (core : Nat)
  | mxm (core : Nat) (ecc : Ecc)
  | cnv (core : Nat) (ecc : Ecc)
  | dwc (core : Nat) (ecc : Ecc)
  | plx (core : Nat) (ecc : Ecc)
  | setlen (core : Nat)
  | cvt (core : Nat) (ecc : Ecc)
  | vopArith (core : Nat) (ecc : Ecc)
  | vopFunction (core : Nat) (ecc : Ecc)
  | vopCompare (core : Nat) (ecc : Ecc)
  | rqnt (core : Nat) (ecc : Ecc)
  | softmax (core : Nat) (ecc : Ecc)
  | layernorm (core : Nat) (ecc : Ecc)
  | nms (core : Nat) (ecc : Ecc)
  | vrdReduce (core : Nat) (ecc : Ecc)
  | topk (core : Nat) (ecc : Ecc)
  | ldt (core : Nat)
  | stt (core : Nat) (ecc : Ecc)
  | shl (core : Nat) (ecc : Ecc)
  | wms (core : Nat)
  | wmw (core : Nat)
  | gate (core : Nat)
  | cfaFetchAdd (core : Nat)
  | cfaLoad (core : Nat)
  | cfaInit (core : Nat)
  | dgp (core : Nat)
  | tileEnd (core : Nat)
  | transferDataLand (core place ck : Nat)
  | transferRelease (core place : Nat)
  | gateOpen (job : Nat)
  | jobStart (part : Nat)
  | jobComplete (job : Nat)
  | replayEvent (core : Nat) (facts : ResidueFacts)
  | replayResume (job : Nat)
  | watchdog (job : Nat)
  | saveComplete (job : Nat)
  | restoreComplete (job : Nat)
  | evict (part : Nat)
  | musterStart
  | refreshLull (owner : Nat)
  | retrainLull (owner : Nat)
  | forcedLull (owner : Nat)
  | lullEnd (owner : Nat)
  | hbmReadRetry (pc addr : Nat) (outcome : ReadOutcome) (reader : Reader)
  | patrolScrub (pc addr : Nat) (outcome : Option ReadOutcome)
  | migrationStart (channel : Nat) (retrainFailed : Bool)
  | migrationCopyDone
  | streamOpen (fn stream tag : Nat)
  | streamClose (fn stream tag : Nat)
  | streamCloseComplete (stream : Nat)
  | clearHeavy (fn stream tag : Nat)
  | heavyLogRead (fn : Nat) (half : Half)
  | chunkFetched (stream serial : Nat) (frames : List UnitFacts)
  | pictureReady (stream serial : Nat)
  | decodeStart (engine : Nat)
  | budgetPassed (engine : Nat)
  | pictureAbandon (stream serial byteOffset : Nat) (units : StopUnits) (headers corrupt : Bool)
  | concealCopyDone
  | decodeComplete (engine : Nat) (facts : DecodeFacts)
  | pictureGoForward (stream : Nat)
  | cacheTtlExpire (cls buf : Nat)
  | clipStart (fn route picture tag : Nat)
  | clipStop (fn route picture tag : Nat)
  | encodeStart (engine : Nat)
  | encodeComplete (engine serial : Nat)
  | evidenceFlush (queue : Nat) (entry : List Byte)
  | routeBind (fn route tag : Nat)
  | routeUnbind (fn route tag : Nat)
  | pscPassStart (unit : Nat)
  | pscPassCommit (unit : Nat)
  | cropTaskStart (unit : Nat)
  | cropTaskDone (unit : Nat)
  | trackerPicture (stream slot : Nat)
  | recordWrite (queue : Nat)
  | overflowDrain (queue : Nat)
  | verdictQuery (frame : List Byte)
  | zoneSelect (fn zone : Nat)
  | waybillSigned
  | musterArm (value : Reg)
  | musterFire
  | musterPulse (arrivalPs phasePs : Nat)
  | mismatchReport (value : Reg)
  | charterLoad (tag : Nat)
  | charterDiscard (tag : Nat)
  | charterSeal (tag : Nat)
  | charterUnload (tag : Nat)
  | preempt (fn job tag : Nat)
  | resume (fn job tag : Nat)
  | cancel (fn job tag : Nat)
  | ctxQuery (fn job tag : Nat)
  | partitionReset (fn part : Nat)
  | waymarkSignal (fn waymark add : Nat)
  | depotAllocate (depot : Nat) (want : Want) (tagBad : Bool)
  | freeListRebuildDone (depot : Nat)
  | doorbellWrite (fn queue : Nat) (half : Half) (value : Reg)
  | sqFetch (queue : Nat) (entries : List (List Byte))
  | fetchCompletionError (what : FetchErr)
  | queueEnable (fn queue tag : Nat)
  | queueDisable (fn queue tag : Nat)
  | cqDisableComplete (queue : Nat)
  | queueQuery (fn queue tag : Nat)
  | queueReset (fn queue tag : Nat)
  | tableBaseWrite (fn table : Nat) (half : Half) (value : Reg)
  | errorLogRead (fn : Nat) (half : Half)
  | bar2Read (fn addr len : Nat)
  | bar2Write (fn addr : Nat) (data : List Byte) (poisoned : Bool)
  | msixCoalesceTimeout (queue : Nat)
  | msixUnmask (fn vec : Nat)
  | atsInvalidate (fn tag page : Nat)
  | l1Entry
  | l0pNarrow
  | linkDown
  | hotReset
  | vfEnableClear
  | d3hotEntry (fn : Nat)
  | bmeClear (fn : Nat)
  | bmeSet (fn : Nat)
  | flr (fn : Nat)
  | sleep (tag : Nat)
  | wake (tag : Nat)
  | drainComplete
  | noticeCommit (timestamp : Reg)
  | filterWrite (value : Reg)
  | wakeTimer
  | wakeComplete
  | throttleUpdate (facts : PowerFacts)
  | coolantSample (facts : CoolantFacts)
  | thermalTrip
  | refLost
  | refReturn
  | leewardRailUp
  | leewardRailDown
  | pwrgoodMainAssert
  | pwrgoodMainDeassert
  | railUndervoltage (leeward : Bool)
  | resetNAssert
  | perstAssert
  | globalColdReset (value : Reg)
  | bootComplete
  | update (tag : Nat) (image : Option (List Byte))
  | recover (tag : Nat) (image : Option (List Byte))
  | selftest (tag : Nat) (bad : List Nat)
  | dump (tag : Nat) (stewards : List Byte)
  | stewardWatchdog (steward : Nat)
  | healthStoreWrite
  | healthRingSet (half : Half) (value : Reg)
  | spdmRequest (request : SpdmReq) (nonce : List Byte)
  | perstDeassert
  | resetNDeassert
  | pcieLinkUp (speed width : Nat) (flit : Bool)
  | verdictLinkUp (fecDegraded : Bool)
  | verdictLinkDown
  | ethModAbsChange (high : Bool)
  | d3hotExit (fn : Nat)
  | vfEnableSet (count : Nat)
  | memorySpaceEnableWrite (fn : Nat) (on : Bool)
  | refreshLullEnd (owner : Nat)
  | retrainDue (owner : Nat)
  | stewardRestartDone (steward : Nat)
  | charterCommandDone
  | secCommandDone
  deriving DecidableEq, Repr

end Sys2Proof
end

