-- ==== Sys2Proof/WellFormed.lean ====
section
/-! DEFINITION. Well-formed commands: every operand names a thing the TF6800 has (R15, R20) and fits the field that
carries it. `Instr.illFormed` names the first operand that does not, then the first relation between operands that fails. -/

namespace Sys2Proof

/-- The bounds of the operands, by the name of what they count. -/
inductive Bound where
  | core | fn | part | owner | vdec | venc | psc | cru | mc | pc | stream | slot | route | queue | waymark | zone | tag
  | channel | steward | vec | place | table | depot | videoClass
  deriving DecidableEq, Repr

/-- How many there are (R15, R20, R39, R66, R123, R252, R283, R315, R404, R433, R442, R451). Owner 6 and above 7: owners
are partitions 0 to 5 and 7 for the common pool. -/
def Bound.count : Bound → Nat
  | .core => 6
  | .fn => 7
  | .part => 6
  | .owner => 8
  | .vdec => 8
  | .venc => 2
  | .psc => 4
  | .cru => 2
  | .mc => 8
  | .pc => 256
  | .stream => 16384
  | .slot => 4
  | .route => 65536
  | .queue => 1048576
  | .waymark => 65536
  | .zone => 4096
  | .tag => 256
  | .channel => 128
  | .steward => 3
  | .vec => 2048
  | .place => 16
  | .table => 4
  | .depot => 256
  | .videoClass => 8

def Bound.name : Bound → String
  | .core => "core"
  | .fn => "function"
  | .part => "partition"
  | .owner => "owner"
  | .vdec => "decode engine"
  | .venc => "encode engine"
  | .psc => "scale-and-tensorise unit"
  | .cru => "crop-resize unit"
  | .mc => "memory controller"
  | .pc => "pseudo-channel"
  | .stream => "stream"
  | .slot => "route slot"
  | .route => "route"
  | .queue => "queue"
  | .waymark => "waymark"
  | .zone => "zone"
  | .tag => "tag"
  | .channel => "channel"
  | .steward => "steward"
  | .vec => "vector"
  | .place => "queue place"
  | .table => "table"
  | .depot => "depot"
  | .videoClass => "VIDEO class"

/-- The operands of a command that a bound governs. -/
def Instr.operands : Instr → List (Bound × Nat)
  | .registerWrite f _ _ _ => [(.fn, f)]
  | .nop c => [(.core, c)]
  | .scalePrefix c => [(.core, c)]
  | .mxm c _ => [(.core, c)]
  | .cnv c _ => [(.core, c)]
  | .dwc c _ => [(.core, c)]
  | .plx c _ => [(.core, c)]
  | .setlen c => [(.core, c)]
  | .cvt c _ => [(.core, c)]
  | .vopArith c _ => [(.core, c)]
  | .vopFunction c _ => [(.core, c)]
  | .vopCompare c _ => [(.core, c)]
  | .rqnt c _ => [(.core, c)]
  | .softmax c _ => [(.core, c)]
  | .layernorm c _ => [(.core, c)]
  | .nms c _ => [(.core, c)]
  | .vrdReduce c _ => [(.core, c)]
  | .topk c _ => [(.core, c)]
  | .ldt c => [(.core, c)]
  | .stt c _ => [(.core, c)]
  | .shl c _ => [(.core, c)]
  | .wms c => [(.core, c)]
  | .wmw c => [(.core, c)]
  | .gate c => [(.core, c)]
  | .cfaFetchAdd c => [(.core, c)]
  | .cfaLoad c => [(.core, c)]
  | .cfaInit c => [(.core, c)]
  | .dgp c => [(.core, c)]
  | .tileEnd c => [(.core, c)]
  | .transferDataLand c p _ => [(.core, c), (.place, p)]
  | .transferRelease c p => [(.core, c), (.place, p)]
  | .gateOpen _ => []
  | .jobStart p => [(.part, p)]
  | .jobComplete _ => []
  | .replayEvent c _ => [(.core, c)]
  | .replayResume _ => []
  | .watchdog _ => []
  | .saveComplete _ => []
  | .restoreComplete _ => []
  | .evict p => [(.part, p)]
  | .musterStart => []
  | .refreshLull o => [(.owner, o)]
  | .retrainLull o => [(.owner, o)]
  | .forcedLull o => [(.owner, o)]
  | .lullEnd o => [(.owner, o)]
  | .hbmReadRetry p _ _ _ => [(.pc, p)]
  | .patrolScrub p _ _ => [(.pc, p)]
  | .migrationStart c _ => [(.channel, c)]
  | .migrationCopyDone => []
  | .streamOpen f s t => [(.fn, f), (.stream, s), (.tag, t)]
  | .streamClose f s t => [(.fn, f), (.stream, s), (.tag, t)]
  | .streamCloseComplete s => [(.stream, s)]
  | .clearHeavy f s t => [(.fn, f), (.stream, s), (.tag, t)]
  | .heavyLogRead f _ => [(.fn, f)]
  | .chunkFetched s _ _ => [(.stream, s)]
  | .pictureReady s _ => [(.stream, s)]
  | .decodeStart e => [(.vdec, e)]
  | .budgetPassed e => [(.vdec, e)]
  | .pictureAbandon s _ _ _ _ _ => [(.stream, s)]
  | .concealCopyDone => []
  | .decodeComplete e _ => [(.vdec, e)]
  | .pictureGoForward s => [(.stream, s)]
  | .cacheTtlExpire c _ => [(.videoClass, c)]
  | .clipStart f r _ t => [(.fn, f), (.route, r), (.tag, t)]
  | .clipStop f r _ t => [(.fn, f), (.route, r), (.tag, t)]
  | .encodeStart e => [(.venc, e)]
  | .encodeComplete e _ => [(.venc, e)]
  | .evidenceFlush q _ => [(.queue, q)]
  | .routeBind f r t => [(.fn, f), (.route, r), (.tag, t)]
  | .routeUnbind f r t => [(.fn, f), (.route, r), (.tag, t)]
  | .pscPassStart u => [(.psc, u)]
  | .pscPassCommit u => [(.psc, u)]
  | .cropTaskStart u => [(.cru, u)]
  | .cropTaskDone u => [(.cru, u)]
  | .trackerPicture s t => [(.stream, s), (.slot, t)]
  | .recordWrite q => [(.queue, q)]
  | .overflowDrain q => [(.queue, q)]
  | .verdictQuery _ => []
  | .zoneSelect f z => [(.fn, f), (.zone, z)]
  | .waybillSigned => []
  | .musterArm _ => []
  | .musterFire => []
  | .musterPulse _ _ => []
  | .mismatchReport _ => []
  | .charterLoad t => [(.tag, t)]
  | .charterDiscard t => [(.tag, t)]
  | .charterSeal t => [(.tag, t)]
  | .charterUnload t => [(.tag, t)]
  | .preempt f _ t => [(.fn, f), (.tag, t)]
  | .resume f _ t => [(.fn, f), (.tag, t)]
  | .cancel f _ t => [(.fn, f), (.tag, t)]
  | .ctxQuery f _ t => [(.fn, f), (.tag, t)]
  | .partitionReset f p => [(.fn, f), (.part, p)]
  | .waymarkSignal f w _ => [(.fn, f), (.waymark, w)]
  | .depotAllocate d _ _ => [(.depot, d)]
  | .freeListRebuildDone d => [(.depot, d)]
  | .doorbellWrite f q _ _ => [(.fn, f), (.queue, q)]
  | .sqFetch q _ => [(.queue, q)]
  | .fetchCompletionError _ => []
  | .queueEnable f q t => [(.fn, f), (.queue, q), (.tag, t)]
  | .queueDisable f q t => [(.fn, f), (.queue, q), (.tag, t)]
  | .cqDisableComplete q => [(.queue, q)]
  | .queueQuery f q t => [(.fn, f), (.queue, q), (.tag, t)]
  | .queueReset f q t => [(.fn, f), (.queue, q), (.tag, t)]
  | .tableBaseWrite f t _ _ => [(.fn, f), (.table, t)]
  | .errorLogRead f _ => [(.fn, f)]
  | .bar2Read f _ _ => [(.fn, f)]
  | .bar2Write f _ _ _ => [(.fn, f)]
  | .msixCoalesceTimeout q => [(.queue, q)]
  | .msixUnmask f v => [(.fn, f), (.vec, v)]
  | .atsInvalidate f _ _ => [(.fn, f)]
  | .l1Entry => []
  | .l0pNarrow => []
  | .linkDown => []
  | .hotReset => []
  | .vfEnableClear => []
  | .d3hotEntry f => [(.fn, f)]
  | .bmeClear f => [(.fn, f)]
  | .bmeSet f => [(.fn, f)]
  | .flr f => [(.fn, f)]
  | .sleep t => [(.tag, t)]
  | .wake t => [(.tag, t)]
  | .drainComplete => []
  | .noticeCommit _ => []
  | .filterWrite _ => []
  | .wakeTimer => []
  | .wakeComplete => []
  | .throttleUpdate _ => []
  | .coolantSample _ => []
  | .thermalTrip => []
  | .refLost => []
  | .refReturn => []
  | .leewardRailUp => []
  | .leewardRailDown => []
  | .pwrgoodMainAssert => []
  | .pwrgoodMainDeassert => []
  | .railUndervoltage _ => []
  | .resetNAssert => []
  | .perstAssert => []
  | .globalColdReset _ => []
  | .bootComplete => []
  | .update t _ => [(.tag, t)]
  | .recover t _ => [(.tag, t)]
  | .selftest t _ => [(.tag, t)]
  | .dump t _ => [(.tag, t)]
  | .stewardWatchdog n => [(.steward, n)]
  | .healthStoreWrite => []
  | .healthRingSet _ _ => []
  | .spdmRequest _ _ => []
  | .perstDeassert => []
  | .resetNDeassert => []
  | .pcieLinkUp _ _ _ => []
  | .verdictLinkUp _ => []
  | .verdictLinkDown => []
  | .ethModAbsChange _ => []
  | .d3hotExit f => [(.fn, f)]
  | .vfEnableSet _ => []
  | .memorySpaceEnableWrite f _ => [(.fn, f)]
  | .refreshLullEnd o => [(.owner, o)]
  | .retrainDue o => [(.owner, o)]
  | .stewardRestartDone n => [(.steward, n)]
  | .charterCommandDone => []
  | .secCommandDone => []

/-- The first operand out of its bound. -/
def firstBad : List (Bound × Nat) → Option String
  | [] => none
  | (b, n) :: l => if n < b.count then firstBad l else some b.name

/-- Owners are the partitions 0 to 5 and the common pool, 7. -/
def ownerOk (o : Nat) : Option String := if o = 6 then some "owner" else none

/-- A 64 B line of a pseudo-channel of 1.125 GiB (R404, R408). -/
def lineOk (addr : Nat) : Option String :=
  if addr < 1207959552 ∧ addr % 64 = 0 then none else some "line"

/-- Bytes of BAR0 and of BAR2 (R436, R439), and MSI-X vectors (R451), of a function. -/
def barBytes0 (f : Nat) : Nat := if f = 0 then 0x4000000 else 0x100000

def barBytes2 (f : Nat) : Nat := if f = 0 then 4 * 0x400000000 else 0x400000000

def vectors (f : Nat) : Nat := if f = 0 then 2048 else 64

/-- A write of SEC_CMD with an OP of 1 to 4 is the row of that command, which carries what the command finds (R510). -/
def isSecCommand (f offset : Nat) (half : Half) (v : Nat) : Bool :=
  f == 0 && offset == 0x30028 && half != .high && 1 ≤ v % 16 && v % 16 ≤ 4

/-- What relates the operands of a command: sizes within its window, and a rate the link has (R431). -/
def Instr.unfit : Instr → Option String
  | .registerWrite f o h v =>
    if o < barBytes0 f ∧ !isSecCommand f o h v.toNat then none else some "register"
  | .refreshLull o => ownerOk o
  | .retrainLull o => ownerOk o
  | .forcedLull o => ownerOk o
  | .lullEnd o => ownerOk o
  | .refreshLullEnd o => ownerOk o
  | .retrainDue o => ownerOk o
  | .hbmReadRetry _ a _ _ => lineOk a
  | .patrolScrub _ a _ => lineOk a
  | .bar2Read f a n => if 1 ≤ n ∧ n ≤ 4096 ∧ a + n ≤ barBytes2 f then none else some "BAR2 byte"
  | .bar2Write f a bs _ => if bs.length ≤ 512 ∧ a + bs.length ≤ barBytes2 f then none else some "BAR2 byte"
  | .msixUnmask f v => if v < vectors f then none else some "vector"
  | .pcieLinkUp s w flit =>
    if 1 ≤ s ∧ s ≤ 6 ∧ 1 ≤ w ∧ w ≤ 16 ∧ (s ≠ 6 ∨ flit) then none else some "link rate"
  | .vfEnableSet n => if n ≤ 6 then none else some "virtual function"
  | _ => none

/-- What is wrong with a command's operands, if anything. -/
def Instr.illFormed (i : Instr) : Option String := (firstBad i.operands).or i.unfit

/-- A well-formed command. -/
def Instr.wf (i : Instr) : Bool := i.illFormed.isNone

end Sys2Proof
end

