-- ==== Sys2Proof/Config.lean ====
section
/-! DEFINITION. What one part fixes and the spec does not: the boot ROM's version (R520), the fused device secret (R503),
the leeward oscillator (R8, R465), and the free values. None of them has a body, so no proof can see a value of one. -/

namespace Sys2Proof

/-- What a coded stream tells a receiver of its buffer model (R110). -/
inductive Signal where
  | hrdParameters (cbr : Bool)            -- HEVC: in the VUI
  | bufferingPeriod (removalDelay : Nat)  -- HEVC: SEI, with initial_cpb_removal_delay in 1/90,000 s
  | pictureTiming                         -- HEVC: SEI
  | timingInfo (equalInterval : Bool)     -- AV1: in the sequence header
  | decoderModelInfo
  | operatingParameters (point : Nat)
  deriving DecidableEq, Repr

/-- Everything the coded bits of a picture depend on (R98 to R100): the encode context, how the picture is coded, its masked
samples at the coded depth, and the reconstructed picture it predicts from, none in an intra picture (IDR, key frame). -/
structure CodeIn where
  cfg : List Byte
  level : Nat                 -- general_level_idc, seq_level_idx
  intra : Bool
  repeats : Bool
  newSeq : Bool
  index : Nat                 -- n of R109
  w : Nat
  h : Nat
  luma : List (List Nat)
  chroma : List (List Nat)
  refPic : Option (List (List Nat) × List (List Nat))
  signals : List Signal
  deriving DecidableEq, Repr

namespace Config

/-! ### The entropy coder of the codecs, whose arithmetic is the standards' (R97, R100). `done` holds the quantiser of each
CTB coded before, none for the cheapest mode. -/

/-- H of R112, before its bound. -/
opaque headBits : CodeIn → Nat
/-- Bits of the next CTB at a quantiser. -/
opaque ctbBits (i : CodeIn) (done : List (Option Nat)) (q : Nat) : Nat
/-- Bits of the next CTB in the cheapest mode, before the bound of R112. -/
opaque cheapBits (i : CodeIn) (done : List (Option Nat)) : Nat
/-- The coded bytes of a picture. -/
opaque codedBytes (i : CodeIn) (done : List (Option Nat)) : List Byte
/-- The reconstructed picture. -/
opaque recon (i : CodeIn) (done : List (Option Nat)) : List (List Nat) × List (List Nat)

/-- Boot ROM version (R520). -/
opaque romVersion : BitVec 32

/-- The 384-bit device secret of the fuses (R503). -/
opaque deviceSecret : BitVec 384

/-- How far the leeward oscillator's rate lies within its band in the `n`-th root-PLL cycle: 0 to 20,000 stand for −1 % to
+1 % of 52 MHz (R8, R465). -/
opaque leewardRate : Nat → Nat

/-- Byte `k` of the image that the `n`-th save writes into its slot: the spec gives a save's contents and size, no layout
(R365, log 32). -/
opaque saveByte (n k : Nat) : BitVec 8

/-- What the `n`-th command finds that is not in its register: the image in host memory (none: its fetch fails), the units
whose self-test fails, the stewards' state and logs (R498, R506). -/
opaque hostImage (n : Nat) : Option (List Byte)
opaque failingUnits (n : Nat) : List Nat
opaque stewardLog (n : Nat) : List Byte

/-- The charter keys, 96 B each, that the body of a firmware image lists: R497 gives no place for the list in the body. -/
opaque charterKeys : List Byte → List (List Byte)

/-- Where a depot of the common pool lies, by its ID: DEP_D_BASE shows it and no rule states it (R382, R401). -/
opaque depotBase : Nat → BitVec 48

/-- The IoU, as FP32, of two boxes whose union and intersection are 0: the formulas of R209 divide 0 by 0 (R288). -/
opaque iouOfNothing : BitVec 32

/-- A free value of 64 bits: the `n`-th value that the spec leaves open. -/
opaque freeValue : Nat → BitVec 64

end Config

end Sys2Proof
end

