-- ==== Sys2Proof/Machine/Bits.lean ====
section
/-! DEFINITION. Number helpers: bit fields, rounding up, sequence comparison and saturating counters (R6, R14), byte
order, and updates of one place of a list. -/

namespace Sys2Proof.Machine

/-- The `w` bits of `n` from bit `lo` up (R6: bit 0 is the least significant). -/
def bits (n lo w : Nat) : Nat := (n >>> lo) % 2 ^ w

/-- Bit `i` of `n`. -/
def bitAt (n i : Nat) : Bool := (n >>> i) % 2 == 1

/-- A truth value as a bit. -/
def b2n (b : Bool) : Nat := if b then 1 else 0

/-- Quotient rounded up; the divisors of the spec are never 0, and 0 gives 0. -/
def ceilDiv (a b : Nat) : Nat := if b = 0 then 0 else (a + b - 1) / b

/-- `a` rounded up to a multiple of `b`. -/
def roundUp (a b : Nat) : Nat := ceilDiv a b * b

/-- The low `w` bits of `n` as a two's complement number. -/
def sext (w n : Nat) : Int :=
  let m := n % 2 ^ w
  if m < 2 ^ (w - 1) then (m : Int) else (m : Int) - (2 ^ w : Nat)

/-- An integer as `w` bits, two's complement. -/
def wrapInt (w : Nat) (i : Int) : Nat := (i % ((2 ^ w : Nat) : Int)).toNat

/-- An integer clamped to `[lo, hi]`. -/
def clampI (lo hi i : Int) : Int := if i < lo then lo else if hi < i then hi else i

/-- R14: sequence number `a` of width `w` is newer than `b`. -/
def seqNewer (w a b : Nat) : Bool :=
  let d := (a + 2 ^ w - b % 2 ^ w) % 2 ^ w
  1 ≤ d && d ≤ 2 ^ (w - 1) - 1

/-- R14: an event counter of width `w` saturates at its all-ones value. -/
def satAdd (w n k : Nat) : Nat := min (n + k) (2 ^ w - 1)

/-- The number `v` as `n` bytes, least significant first (R6). -/
def le : Nat → Nat → List Byte
  | 0, _ => []
  | n + 1, v => BitVec.ofNat 8 v :: le n (v / 256)

/-- The number `v` as `n` bytes, most significant first (R308, R345). -/
def be (n v : Nat) : List Byte := (le n v).reverse

/-- The number that bytes hold, least significant first. -/
def ofLe : List Byte → Nat
  | [] => 0
  | b :: bs => b.toNat + 256 * ofLe bs

/-- The number that bytes hold, most significant first. -/
def ofBe (bs : List Byte) : Nat := ofLe bs.reverse

/-- `n` zero bytes. -/
def zeros (n : Nat) : List Byte := List.replicate n 0

/-- Little-endian number of `n` bytes at offset `o` of a byte list; bytes past the end read as 0. -/
def at_ (bs : List Byte) (o n : Nat) : Nat := ofLe ((bs.drop o).take n)

/-- A list with the value at `i` changed by `f`; unchanged past the end. -/
def modAt {α : Type} (f : α → α) : Nat → List α → List α
  | _, [] => []
  | 0, x :: xs => f x :: xs
  | i + 1, x :: xs => x :: modAt f i xs

/-- A list with every element that `p` selects changed by `f`. -/
def modIf {α : Type} (p : α → Bool) (f : α → α) (l : List α) : List α :=
  l.map fun x => if p x then f x else x

/-- The sum of a list. -/
def sum (l : List Nat) : Nat := l.foldl (· + ·) 0

/-- The numbers 0 to n-1. -/
def upTo (n : Nat) : List Nat := List.range n

/-- Bits of `m` that are set, ascending, among the first `n`. -/
def setBits (n m : Nat) : List Nat := (upTo n).filter (bitAt m)

/-- A number with bit `i` set. -/
def orBit (m i : Nat) : Nat := if bitAt m i then m else m + 2 ^ i

/-- Two half-open spans overlap. -/
def overlaps (lo hi lo' hi' : Nat) : Bool := lo < hi' && lo' < hi

/-- `bs` padded with zeros to `n` bytes, or cut to `n`. -/
def fit (n : Nat) (bs : List Byte) : List Byte := bs.take n ++ zeros (n - bs.length)

end Sys2Proof.Machine
end

