-- ==== Sys2Proof/Machine/Float.lean ====
section
/-! DEFINITION. Exact arithmetic (R166 to R181, R188, R197): values of the number formats, one rounding, encodings,
conversions, and the elementwise operations of a float compute type. -/

namespace Sys2Proof.Machine

/-- A value of a float format: NaN, a signed infinity, or the finite value (-1)^neg * m * 2^e. -/
inductive FV where
  | nan
  | inf (neg : Bool)
  | fin (neg : Bool) (m : Nat) (e : Int)
  deriving DecidableEq, Repr

/-- What the all-ones exponent of a float format encodes (R167). -/
inductive Special where
  | ieee      -- infinities and NaNs
  | nanOnly   -- E4M3: finite values, and NaN at fraction all ones
  | none      -- finite values only
  deriving DecidableEq, Repr

/-- The layout of a float format (R167). -/
structure FFmt where
  eb : Nat
  mb : Nat
  bias : Nat
  special : Special
  deriving DecidableEq, Repr

def fp32 : FFmt := { eb := 8, mb := 23, bias := 127, special := .ieee }
def fp16 : FFmt := { eb := 5, mb := 10, bias := 15, special := .ieee }
def bf16 : FFmt := { eb := 8, mb := 7, bias := 127, special := .ieee }
def e5m2 : FFmt := { eb := 5, mb := 2, bias := 15, special := .ieee }
def e4m3 : FFmt := { eb := 4, mb := 3, bias := 7, special := .nanOnly }
def e3m2 : FFmt := { eb := 3, mb := 2, bias := 3, special := .none }
def e2m3 : FFmt := { eb := 2, mb := 3, bias := 1, special := .none }
def e2m1 : FFmt := { eb := 2, mb := 1, bias := 1, special := .none }

/-- Zero with a sign. -/
def fZero (neg : Bool) : FV := .fin neg 0 0

def FV.isNan : FV → Bool
  | .nan => true
  | _ => false

def FV.isInf : FV → Bool
  | .inf _ => true
  | _ => false

def FV.isFin : FV → Bool
  | .fin _ _ _ => true
  | _ => false

def FV.isZero : FV → Bool
  | .fin _ m _ => m == 0
  | _ => false

def FV.neg : FV → Bool
  | .nan => false
  | .inf s => s
  | .fin s _ _ => s

/-- The value with its sign replaced. -/
def FV.withSign (s : Bool) : FV → FV
  | .nan => .nan
  | .inf _ => .inf s
  | .fin _ m e => .fin s m e

/-- Total bits of a format. -/
def FFmt.width (f : FFmt) : Nat := 1 + f.eb + f.mb

/-- Exponent of the smallest quantum of a format. -/
def FFmt.qmin (f : FFmt) : Int := 1 - (f.bias : Int) - (f.mb : Int)

/-- Significand and exponent of the largest finite value (R167). -/
def FFmt.maxFin (f : FFmt) : Nat × Int :=
  match f.special with
  | .ieee => (2 ^ (f.mb + 1) - 1, (2 ^ f.eb : Nat) - 2 - (f.bias : Int) - f.mb)
  | .nanOnly => (2 ^ (f.mb + 1) - 2, (2 ^ f.eb : Nat) - 1 - (f.bias : Int) - f.mb)
  | .none => (2 ^ (f.mb + 1) - 1, (2 ^ f.eb : Nat) - 1 - (f.bias : Int) - f.mb)

/-- Reads the encoding `n` (R167); subnormals at full value. -/
def fDec (f : FFmt) (n : Nat) : FV :=
  let s := bitAt n (f.eb + f.mb)
  let ex := bits n f.mb f.eb
  let fr := bits n 0 f.mb
  if f.special = .ieee ∧ ex = 2 ^ f.eb - 1 then (if fr = 0 then .inf s else .nan)
  else if f.special = .nanOnly ∧ ex = 2 ^ f.eb - 1 ∧ fr = 2 ^ f.mb - 1 then .nan
  else if ex = 0 then .fin s fr f.qmin
  else .fin s (2 ^ f.mb + fr) (f.qmin + ex - 1)

/-- Bit length. -/
def bitlen (m : Nat) : Nat := if m = 0 then 0 else Nat.log2 m + 1

/-- `m * 2^e` rounded to nearest, ties to even, on the format's grid continued past its largest finite value;
`sticky` puts a positive amount below every quantum on top (R173). Gives significand and exponent. -/
def roundGrid (f : FFmt) (m : Nat) (e : Int) (sticky : Bool) : Nat × Int :=
  if m = 0 then (0, f.qmin)
  else
    let lead := e + (bitlen m : Int) - 1 - f.mb
    let u := if lead < f.qmin then f.qmin else lead
    if u ≤ e then (m <<< (e - u).toNat, u)
    else
      let d := (u - e).toNat
      let q := m >>> d
      let r := m - (q <<< d)
      let half := 1 <<< (d - 1)
      let up := half < r || (r == half && (sticky || q % 2 == 1))
      (if up then q + 1 else q, u)

/-- `m * 2^e` exceeds `n * 2^g`. -/
def magGt (m : Nat) (e : Int) (n : Nat) (g : Int) : Bool :=
  if e ≤ g then decide (n <<< (g - e).toNat < m) else decide (n < m <<< (e - g).toNat)

/-- One rounding to a format with infinities: overflow gives infinity (R173, R177, R197). -/
def fRnd (f : FFmt) (sticky : Bool) : FV → FV
  | .nan => .nan
  | .inf s => .inf s
  | .fin s m e =>
    let r := roundGrid f m e sticky
    if magGt r.1 r.2 f.maxFin.1 f.maxFin.2 then .inf s else .fin s r.1 r.2

/-- The canonical NaN of a format (R167); 0 where the format has none. -/
def canonNan (f : FFmt) : Nat :=
  match f.special with
  | .ieee => (2 ^ f.eb - 1) * 2 ^ f.mb + 2 ^ (f.mb - 1)
  | .nanOnly => 2 ^ (f.eb + f.mb) - 1
  | .none => 0

/-- The sign bit. -/
def signBit (f : FFmt) (s : Bool) : Nat := if s then 2 ^ (f.eb + f.mb) else 0

/-- Encodes a finite value that lies on the format's grid. -/
def encFin (f : FFmt) (s : Bool) (m : Nat) (e : Int) : Nat :=
  let r := roundGrid f m e false
  let r := if r.1 = 2 ^ (f.mb + 1) then (2 ^ f.mb, r.2 + 1) else r
  signBit f s + (if r.1 < 2 ^ f.mb then r.1
    else ((r.2 - f.qmin + 1).toNat) * 2 ^ f.mb + (r.1 - 2 ^ f.mb))

/-- Encodes a value of a format with infinities, after its rounding. -/
def fEnc (f : FFmt) : FV → Nat
  | .nan => canonNan f
  | .inf s => signBit f s + (2 ^ f.eb - 1) * 2 ^ f.mb
  | .fin s m e => encFin f s m e

/-- A finite value as an integer number of quanta 2^e. -/
def sInt (s : Bool) (m : Nat) : Int := if s then -(m : Int) else (m : Int)

/-- The signed integers of two finite values over their smaller exponent. -/
def align (m : Int) (e : Int) (n : Int) (g : Int) : Int × Int × Int :=
  if e ≤ g then (m, n * (2 ^ (g - e).toNat : Nat), e) else (m * (2 ^ (e - g).toNat : Nat), n, g)

/-- A signed integer over 2^e as a value; a zero takes the sign `z`. -/
def ofSInt (i : Int) (e : Int) (z : Bool) : FV :=
  if i = 0 then fZero z else .fin (decide (i < 0)) i.natAbs e

/-- The exact sum (R177): an exact zero of different signs is +0; NaN for opposite infinities. -/
def fAddX : FV → FV → FV
  | .nan, _ => .nan
  | _, .nan => .nan
  | .inf s, .inf t => if s = t then .inf s else .nan
  | .inf s, _ => .inf s
  | _, .inf t => .inf t
  | .fin s m e, .fin t n g =>
    let a := align (sInt s m) e (sInt t n) g
    ofSInt (a.1 + a.2.1) a.2.2 (s && t && m == 0 && n == 0)

/-- The exact product. -/
def fMulX : FV → FV → FV
  | .nan, _ => .nan
  | _, .nan => .nan
  | .inf s, b => if b.isZero then .nan else .inf (s != b.neg)
  | a, .inf t => if a.isZero then .nan else .inf (a.neg != t)
  | .fin s m e, .fin t n g => .fin (s != t) (m * n) (e + g)

def fAdd (f : FFmt) (a b : FV) : FV := fRnd f false (fAddX a b)
def fMul (f : FFmt) (a b : FV) : FV := fRnd f false (fMulX a b)

def fNeg (a : FV) : FV := a.withSign (!a.neg)
def fAbs (a : FV) : FV := a.withSign false
def fSub (f : FFmt) (a b : FV) : FV := fAdd f a (fNeg b)

/-- A × B + C, one rounding (R196). -/
def fFma (f : FFmt) (a b c : FV) : FV := fRnd f false (fAddX (fMulX a b) c)

/-- The quotient of two significands to 64 bits past the divisor, with a low bit that says the quotient is inexact. -/
def divSig (m n : Nat) : Nat × Int :=
  let k := 64 + bitlen n
  let q := (m <<< k) / n
  (2 * q + b2n ((m <<< k) % n != 0), -((k : Int) + 1))

/-- A ÷ B, one rounding (R197): 0 ÷ 0 and ∞ ÷ ∞ give NaN, a finite non-zero value by zero a signed infinity. -/
def fDiv (f : FFmt) : FV → FV → FV
  | .nan, _ => .nan
  | _, .nan => .nan
  | .inf s, b => if b.isInf then .nan else .inf (s != b.neg)
  | .fin s _ _, .inf t => fZero (s != t)
  | .fin s m e, .fin t n g =>
    if n = 0 then (if m = 0 then .nan else .inf (s != t))
    else if m = 0 then fZero (s != t)
    else
      let d := divSig m n
      fRnd f false (.fin (s != t) d.1 (e - g + d.2))

/-- `a < b` for values that are not NaN; zeros are equal. -/
def fLt : FV → FV → Bool
  | .nan, _ => false
  | _, .nan => false
  | .inf s, .inf t => s && !t
  | .inf s, _ => s
  | _, .inf t => !t
  | .fin s m e, .fin t n g =>
    let a := align (sInt s m) e (sInt t n) g
    decide (a.1 < a.2.1)

/-- Equal values; zeros of both signs are equal; NaN equals nothing. -/
def fEq (a b : FV) : Bool := !a.isNan && !b.isNan && !fLt a b && !fLt b a

/-- The order of R203: as `fLt`, and -0 lies below +0. -/
def fLtZ (a b : FV) : Bool := fLt a b || (a.isZero && b.isZero && a.neg && !b.neg)

def fMin (a b : FV) : FV := if a.isNan || b.isNan then .nan else if fLtZ b a then b else a
def fMax (a b : FV) : FV := if a.isNan || b.isNan then .nan else if fLtZ a b then b else a

/-- An integer as a value. -/
def fOfInt (i : Int) : FV := .fin (decide (i < 0)) i.natAbs 0

/-- A finite value rounded to the nearest integer, ties to even. -/
def rneInt (s : Bool) (m : Nat) (e : Int) : Int :=
  if 0 ≤ e then sInt s (m <<< e.toNat)
  else
    let d := (-e).toNat
    let q := m >>> d
    let r := m - (q <<< d)
    let half := 1 <<< (d - 1)
    sInt s (if half < r || (r == half && q % 2 == 1) then q + 1 else q)

/-- Integer quotient rounded to nearest, ties to even; `n` positive. -/
def rneDiv (a : Int) (n : Nat) : Int :=
  let m := a.natAbs
  let q := m / n
  let r := m % n
  sInt (decide (a < 0)) (if n < 2 * r || (2 * r == n && q % 2 == 1) then q + 1 else q)

/-- Floor of a finite value. -/
def fFloor (s : Bool) (m : Nat) (e : Int) : Int :=
  if 0 ≤ e then sInt s (m <<< e.toNat) else (sInt s m) / ((2 ^ (-e).toNat : Nat) : Int)

/-- An encoding with the flag bits (R182) its conversion sets. -/
abbrev Flagged := Nat × Nat

def flNanIn : Nat := 1
def flNanMade : Nat := 2
def flFpOver : Nat := 4
def flIntSat : Nat := 8
def flRange : Nat := 16
def flConvNan : Nat := 32
def vxEmpty : Nat := 256
def vxInvalid : Nat := 512
def vxDivZero : Nat := 1024
def vxOverflow : Nat := 2048
def vxIntSat : Nat := 4096
def vxNanIn : Nat := 8192
def vxShort : Nat := 16384
def vxRowInf : Nat := 32768

/-- A flag when a condition holds. -/
def flagIf (c : Bool) (fl : Nat) : Nat := if c then fl else 0

/-- Conversion to a float format (R179). -/
def cvtFloat (f : FFmt) (nonsat : Bool) : FV → Flagged
  | .nan =>
    match f.special with
    | .none => (0, flConvNan)
    | _ => (canonNan f, 0)
  | .inf s =>
    match f.special with
    | .ieee => if nonsat then (fEnc f (.inf s), 0) else (encFin f s f.maxFin.1 f.maxFin.2, flRange)
    | .nanOnly => if nonsat then (canonNan f, flRange) else (encFin f s f.maxFin.1 f.maxFin.2, flRange)
    | .none => (encFin f s f.maxFin.1 f.maxFin.2, flRange)
  | .fin s m e =>
    let r := roundGrid f m e false
    if magGt r.1 r.2 f.maxFin.1 f.maxFin.2 then
      match f.special with
      | .ieee => if nonsat then (fEnc f (.inf s), flRange) else (encFin f s f.maxFin.1 f.maxFin.2, flRange)
      | .nanOnly => if nonsat then (canonNan f, flRange) else (encFin f s f.maxFin.1 f.maxFin.2, flRange)
      | .none => (encFin f s f.maxFin.1 f.maxFin.2, flRange)
    else (encFin f s r.1 r.2, 0)

/-- Conversion to an integer range (R180). -/
def cvtIntRange (lo hi : Int) : FV → Int × Nat
  | .nan => (0, flConvNan)
  | .inf s => (if s then lo else hi, flRange)
  | .fin s m e =>
    let i := rneInt s m e
    (clampI lo hi i, flagIf (decide (i < lo ∨ hi < i)) flRange)

/-- The integer square root, one result bit at a time from bit `k - 1` down. -/
def isqrtGo : Nat → Nat → Nat → Nat
  | 0, _, r => r
  | k + 1, n, r =>
    let r' := r + 2 ^ k
    isqrtGo k n (if r' * r' ≤ n then r' else r)

/-- Floor of the square root. -/
def isqrt (n : Nat) : Nat := isqrtGo (Nat.log2 n / 2 + 1) n 0

/-! ### The format codes of R166 -/

/-- Element bits of a format code. -/
def fmtBits (c : Nat) : Nat :=
  match c with
  | 2 | 3 | 12 => 4
  | 10 | 11 => 6
  | 6 | 7 => 16
  | 14 | 15 => 32
  | _ => 8

/-- The integer path of R166. -/
def fmtIsInt (c : Nat) : Bool := c ≤ 3 || c == 15

/-- The MX formats of R166. -/
def fmtIsMx (c : Nat) : Bool := 8 ≤ c && c ≤ 13

/-- A format an array operand may take (R166). -/
def fmtArray (c : Nat) : Bool := c ≤ 13

/-- The 16-bit class of R143. -/
def fmtIs16 (c : Nat) : Bool := c == 6 || c == 7

/-- The 4-bit formats. -/
def fmtIs4 (c : Nat) : Bool := c == 2 || c == 3 || c == 12

/-- The float layout of a float format code (MXINT8 has none, and is read by `elemVal`). -/
def ffmtOf (c : Nat) : FFmt :=
  match c with
  | 4 | 8 => e4m3
  | 5 | 9 => e5m2
  | 6 => fp16
  | 7 => bf16
  | 10 => e3m2
  | 11 => e2m3
  | 12 => e2m1
  | _ => fp32

/-- The range of an integer format code (R168). -/
def intRange (c : Nat) : Int × Int :=
  match c with
  | 0 => (-128, 127)
  | 1 => (0, 255)
  | 2 => (-8, 7)
  | 3 => (0, 15)
  | _ => (-2147483648, 2147483647)

/-- The integer an integer element encodes (R168). -/
def intVal (c n : Nat) : Int :=
  match c with
  | 0 => sext 8 n
  | 1 => ((n % 256 : Nat) : Int)
  | 2 => sext 4 n
  | 3 => ((n % 16 : Nat) : Int)
  | _ => sext 32 n

/-- The value of an element of any format, before a block scale; MXINT8 element n is n × 2^-6 (R168). -/
def elemVal (c n : Nat) : FV :=
  if fmtIsInt c then fOfInt (intVal c n)
  else if c = 13 then let i := sext 8 n; .fin (decide (i < 0)) i.natAbs (-6)
  else fDec (ffmtOf c) n

/-- Conversion of a value to a non-MX destination format (R179, R180). -/
def cvtTo (c : Nat) (nonsat : Bool) (v : FV) : Flagged :=
  if fmtIsInt c then
    let r := cvtIntRange (intRange c).1 (intRange c).2 v
    (wrapInt (fmtBits c) r.1, r.2)
  else cvtFloat (ffmtOf c) nonsat v

/-- A block scale byte times a value (R169); 0xFF is NaN. -/
def mxScale (b : Nat) : FV → FV
  | .nan => .nan
  | .inf s => if b = 255 then .nan else .inf s
  | .fin s m e => if b = 255 then .nan else .fin s m (e + (b : Int) - 127)

/-- Floor of log2 of a positive finite magnitude. -/
def log2Floor (m : Nat) (e : Int) : Int := (bitlen m : Int) - 1 + e

/-- The emax of R181. -/
def mxEmax (c : Nat) : Int :=
  match c with
  | 8 => 8
  | 9 => 15
  | 10 => 4
  | 11 => 2
  | 12 => 2
  | _ => 0

/-- The largest finite magnitude of a block. -/
def maxMag : List FV → Nat × Int
  | [] => (0, 0)
  | .fin _ m e :: vs =>
    let r := maxMag vs
    if magGt m e r.1 r.2 then (m, e) else r
  | _ :: vs => maxMag vs

/-- The scale byte of a block and its flags; `none` where the block's elements are all written 0 (R181). -/
def mxBlockScale (c : Nat) (nonsat : Bool) (vs : List FV) : Nat × Bool × Nat :=
  let hasNan := vs.any FV.isNan
  let hasInf := vs.any FV.isInf
  if hasNan || (nonsat && hasInf) then
    (255, true, flagIf hasNan flConvNan ||| flagIf hasInf flRange)
  else
    let x := maxMag vs
    if x.1 = 0 then (127, false, flagIf hasInf flRange)
    else
      let e := clampI (-127) 127 (log2Floor x.1 x.2 - mxEmax c)
      ((e + 127).toNat, false, flagIf hasInf flRange)

/-- An element of a block under scale byte `b` (R181); an element that overflows from the scale choice sets no flag. -/
def mxElem (c b : Nat) (v : FV) : Nat :=
  let w := match v with
    | .fin s m e => FV.fin s m (e - (b : Int) + 127)
    | x => x
  if c = 13 then
    match w with
    | .fin s m e => wrapInt 8 (clampI (-128) 127 (rneInt s m (e + 6)))
    | .inf s => wrapInt 8 (if s then -128 else 127)
    | .nan => 0
  else (cvtFloat (ffmtOf c) false w).1

end Sys2Proof.Machine
end

