-- ==== Sys2Proof/Machine/Memory.lean ====
section
/-! DEFINITION. The byte memories (HBM, scratchpad, accumulator memory, staging area, flash): one canonical form, in
which an unlisted byte reads as 0 (R355 for HBM, R493 for the SRAMs). -/

namespace Sys2Proof.Machine

/-- What an unlisted byte reads as. -/
def memDefault : Byte := 0

/-- The byte at address `a`. -/
def memRead : Mem → Nat → Byte
  | [], _ => memDefault
  | (k, v) :: m, a => if a = k then v else if a < k then memDefault else memRead m a

/-- The memory with byte `v` at address `a`, in canonical form. -/
def memWrite : Mem → Nat → Byte → Mem
  | [], a, v => if v = memDefault then [] else [(a, v)]
  | (k, w) :: m, a, v =>
    if a < k then (if v = memDefault then (k, w) :: m else (a, v) :: (k, w) :: m)
    else if a = k then (if v = memDefault then m else (a, v) :: m)
    else (k, w) :: memWrite m a v

/-- The canonical form, from a lower bound of the addresses: rising addresses, no cell equal to the default. -/
def memWfFrom : Nat → Mem → Bool
  | _, [] => true
  | lo, (k, v) :: m => decide (lo ≤ k) && decide (v ≠ memDefault) && memWfFrom (k + 1) m

/-- The canonical form of a memory. -/
def memWf (m : Mem) : Bool := memWfFrom 0 m

/-- The `n` bytes from address `a`. -/
def memBytes (m : Mem) (a : Nat) : Nat → List Byte
  | 0 => []
  | n + 1 => memRead m a :: memBytes m (a + 1) n

/-- The little-endian number in the `n` bytes from `a` (R6). -/
def memNat (m : Mem) (a n : Nat) : Nat := ofLe (memBytes m a n)

/-- The memory with the bytes `bs` from address `a`. -/
def memWriteBytes (m : Mem) (a : Nat) : List Byte → Mem
  | [] => m
  | b :: bs => memWriteBytes (memWrite m a b) (a + 1) bs

/-- The memory with every listed byte of the span `[lo, hi)` back at 0. -/
def memClear (m : Mem) (lo hi : Nat) : Mem := m.filter fun c => !(lo ≤ c.1 && c.1 < hi)

/-- The part of a memory in the span `[lo, hi)`. -/
def memSlice (m : Mem) (lo hi : Nat) : Mem := m.filter fun c => lo ≤ c.1 && c.1 < hi

/-- The `n` bits of a memory from bit address `a` (bit 8k is bit 0 of byte k): packed elements (R168). -/
def memBits (m : Mem) (a n : Nat) : Nat :=
  bits (memNat m (a / 8) ((a % 8 + n + 7) / 8)) (a % 8) n

/-- The memory with the `n` bits from bit address `a` set to `v`. -/
def memWriteBits (m : Mem) (a n v : Nat) : Mem :=
  let k := (a % 8 + n + 7) / 8
  let old := memNat m (a / 8) k
  let keep := old - (bits old (a % 8) n) * 2 ^ (a % 8)
  memWriteBytes m (a / 8) (le k (keep + (v % 2 ^ n) * 2 ^ (a % 8)))

end Sys2Proof.Machine
end

