-- ==== Sys2Proof/Machine/CoreMem.lean ====
section
/-! DEFINITION. What the data path of one inference core holds: scratchpad, accumulator memory, operand banks, sticky
flags, row-step counts and the open layer digest (R142, R153, R165, R183, R241, R249, R322 to R326), and the element
writes that reach the scratchpad write port. -/

namespace Sys2Proof.Machine

/-- One operand bank of a column: 128 B of elements and 4 B of MX scales (R142). Every row of a column holds a copy. -/
structure Bank where
  data : List Byte
  scale : List Byte
  deriving DecidableEq, Repr

def Bank.zero : Bank := { data := zeros 128, scale := zeros 4 }

/-- The open digest entry of a core slot (R323 to R326). -/
structure DigOpen where
  entry : Nat
  layer : Nat
  base : Nat
  pitch : Nat
  rows : Nat
  fmt : Nat
  elems : Nat
  origin : Nat
  stride : Nat
  lr : Option Nat
  lrScale : Nat
  dsum : Nat
  dxor : Nat
  count : Nat
  deriving DecidableEq, Repr

/-- The data path of one core. -/
structure CoreMem where
  csp : Mem
  acm : Mem
  active : List Bank
  shadow : List Bank
  arith : Nat
  win : Nat
  steps : List Nat
  dig : Option DigOpen
  deriving DecidableEq, Repr

/-- A core scrubbed to zero (R355, R369, R493). -/
def CoreMem.zero : CoreMem :=
  { csp := [], acm := [], active := List.replicate 64 Bank.zero, shadow := List.replicate 64 Bank.zero,
    arith := 0, win := 0, steps := List.replicate 32 0, dig := none }

/-- The SplitMix finaliser of R322. -/
def mix64 (z : Nat) : Nat :=
  let z := ((z ^^^ (z >>> 30)) * 0xBF58476D1CE4E5B9) % 2 ^ 64
  let z := ((z ^^^ (z >>> 27)) * 0x94D049BB133111EB) % 2 ^ 64
  z ^^^ (z >>> 31)

/-- The element hash of R322. -/
def elemHash (index v : Nat) : Nat := mix64 (((index * 0x9E3779B97F4A7C15) % 2 ^ 64) ^^^ v)

/-- One element write: bit address, bits, value, and whether the element is enabled and so counts toward a digest (R193,
R325). -/
structure EWrite where
  bit : Nat
  n : Nat
  v : Nat
  on : Bool
  deriving DecidableEq, Repr

/-- The write of an enabled element. -/
def wr (bit n v : Nat) : EWrite := { bit := bit, n := n, v := v, on := true }

/-- The write of something that is no enabled element. -/
def wrOff (bit n v : Nat) : EWrite := { bit := bit, n := n, v := v, on := false }

/-- Two writes, or a write and a span of bits, share a bit. -/
def EWrite.meets (w : EWrite) (lo hi : Nat) : Bool := w.bit < hi && lo < w.bit + w.n

/-- The elements of a digest window that a write touches, as row, column and lowest bit (R324, R325). Rows lie a pitch
apart; a window of one row has no pitch. -/
def DigOpen.touched (d : DigOpen) (w : EWrite) : List (Nat × Nat × Nat) :=
  let eb := fmtBits d.fmt
  let lo := 8 * d.base
  if w.bit + w.n ≤ lo then []
  else
    let rowBits := if d.rows ≤ 1 then 0 else 8 * d.pitch
    let off := w.bit - lo
    let r := if rowBits = 0 then 0 else off / rowBits
    let j := (off - r * rowBits) / eb
    ((upTo (w.n / eb + 2)).map fun n => (r, j + n, lo + r * rowBits + (j + n) * eb)).filter fun e =>
      r < d.rows && e.2.1 < d.elems && w.meets e.2.2 (e.2.2 + eb)

/-- One write of a beat counts toward the open entry every window element it touches: those whose lowest bit it writes, and
those of which no write of the beat writes a lower part. The element is hashed as the beat leaves it (R325). -/
def digWrite (lrVal : Nat) (m : Mem) (ws : List EWrite) (d : DigOpen) (w : EWrite) : DigOpen :=
  if !w.on then d
  else
    (d.touched w).foldl (fun d e =>
      let eb := fmtBits d.fmt
      if w.bit ≤ e.2.2 || !(ws.any fun u => u.on && u.bit < w.bit && u.meets e.2.2 (e.2.2 + eb)) then
        let h := elemHash (d.origin + lrVal * d.lrScale + e.1 * d.stride + e.2.1) (memBits m e.2.2 eb)
        { d with dsum := (d.dsum + h) % 2 ^ 64, dxor := d.dxor ^^^ h, count := d.count + 1 }
      else d) d

/-- The element writes of one beat in order; those of enabled elements count toward the open digest entry (R325). -/
def applyWrites (lrVal : Nat) (ws : List EWrite) (c : CoreMem) : CoreMem :=
  let m := ws.foldl (fun m w => memWriteBits m w.bit w.n w.v) c.csp
  { c with csp := m, dig := c.dig.map fun d => ws.foldl (digWrite lrVal m ws) d }

/-- Sticky flags raised. -/
def CoreMem.raise (c : CoreMem) (fl : Nat) : CoreMem := { c with arith := c.arith ||| fl }

/-- The 32-bit word of column `col` in ACM line `line` (R153). -/
def acmWord (c : CoreMem) (line col : Nat) : Nat := memNat c.acm (line * 256 + col * 4) 4

/-- The ACM with one word written. -/
def acmSet (c : CoreMem) (line col v : Nat) : CoreMem :=
  { c with acm := memWriteBytes c.acm (line * 256 + col * 4) (le 4 v) }

end Sys2Proof.Machine
end

