-- ==== Sys2Proof/Machine/Functions.lean ====
section
/-! DEFINITION. The functions 0x10 to 0x17 of the vector engine (R198): the exact real function rounded once to FP32.
RCP and RSQRT are decided by integer arithmetic. The others are evaluated as fixed-point numbers of `fxBits` fraction
bits and rounded with a sticky bit; that this decides every FP32 rounding is DEDUCED (log 11). -/

namespace Sys2Proof.Machine

/-- Fraction bits of a fixed-point number. -/
def fxBits : Nat := 640

/-- One. -/
def fxOne : Nat := 2 ^ fxBits

def fxMul (a b : Nat) : Nat := (a * b) >>> fxBits
def fxDiv (a b : Nat) : Nat := (a <<< fxBits) / b

/-- A magnitude m × 2^e as a fixed-point number, truncated. -/
def fxOf (m : Nat) (e : Int) : Nat :=
  let k := e + (fxBits : Int)
  if 0 ≤ k then m <<< k.toNat else m >>> (-k).toNat

/-- The sum of x^(2i+1)/(2i+1) with term `t` = x^(2k+1) and `x2` = x squared: the series of artanh, or of arctan when
`alt`, which subtracts every second term. -/
def atSeries (alt : Bool) (x2 : Nat) : Nat → Nat → Nat → Nat → Nat
  | 0, _, _, acc => acc
  | fuel + 1, k, t, acc =>
    let v := t / (2 * k + 1)
    atSeries alt x2 fuel (k + 1) (fxMul t x2) (if alt && k % 2 == 1 then acc - v else acc + v)

/-- ln 2 = 2 artanh(1/3). -/
def fxLn2 : Nat :=
  let x := fxOne / 3
  2 * atSeries false (fxMul x x) 220 0 x 0

/-- π by Machin's formula. -/
def fxPi : Nat :=
  let a := fxOne / 5
  let b := fxOne / 239
  16 * atSeries true (fxMul a a) 150 0 a 0 - 4 * atSeries true (fxMul b b) 50 0 b 0

/-- √(2/π). -/
def fxSqrt2Pi : Nat := isqrt ((fxDiv (2 * fxOne) fxPi) <<< fxBits)

/-- The sum of r^n / n! from term `n` on. -/
def expSeries (r : Nat) : Nat → Nat → Nat → Nat → Nat
  | 0, _, _, acc => acc
  | fuel + 1, n, t, acc => expSeries r fuel (n + 1) (fxMul t r / (n + 1)) (acc + t)

/-- e^r for a fixed-point r from 0 to 1. -/
def expFrac (r : Nat) : Nat := expSeries r 150 0 fxOne 0

/-- e^x for x ≥ 0: a fixed-point number in [1, 2) and a power of two. -/
def expUp (x : Nat) : Nat × Nat := (expFrac (x % fxLn2), x / fxLn2)

/-- e^-x for x ≥ 0, as a fixed-point number. -/
def expDown (x : Nat) : Nat :=
  let p := expUp x
  fxDiv fxOne p.1 >>> p.2

/-- A fixed-point magnitude rounded to FP32, with a sticky bit: no value of these functions lies on the fixed-point grid
away from the special cases. -/
def fxRound (s : Bool) (v : Nat) : FV := fRnd fp32 false (.fin s (2 * v + 1) (-(fxBits : Int) - 1))

/-- A magnitude is at least `n`. -/
def magGe (m : Nat) (e : Int) (n : Nat) : Bool := !magGt n 0 m e

/-- e^x (R198). -/
def fExp : FV → FV
  | .nan => .nan
  | .inf s => if s then fZero false else .inf false
  | .fin s m e =>
    if m = 0 then .fin false 1 0
    else if s then
      if magGe m e 104 then fZero false else fxRound false (expDown (fxOf m e))
    else if magGe m e 90 then .inf false
    else
      let p := expUp (fxOf m e)
      fRnd fp32 false (.fin false (2 * p.1 + 1) ((p.2 : Int) - fxBits - 1))

/-- ln x (R198). -/
def fLog : FV → FV
  | .nan => .nan
  | .inf s => if s then .nan else .inf false
  | .fin s m e =>
    if m = 0 then .inf true
    else if s then .nan
    else
      -- x = t × 2^k with t from 3/4 to 3/2
      let l := log2Floor m e
      let t0 := fxOf m (e - l)
      let big := decide (3 * fxOne ≤ 2 * t0)
      let t := if big then t0 / 2 else t0
      let k := if big then l + 1 else l
      let neg := decide (t < fxOne)
      let y := fxDiv (if neg then fxOne - t else t - fxOne) (t + fxOne)
      let ln := 2 * atSeries false (fxMul y y) 170 0 y 0
      let v : Int := k * (fxLn2 : Int) + sInt neg ln
      if t = fxOne ∧ k = 0 then fZero false
      else fxRound (decide (v < 0)) v.natAbs

/-- 1 ÷ x (R198). -/
def fRcp (x : FV) : FV := fDiv fp32 (.fin false 1 0) x

/-- A significand without its factors of two, at most `fuel` of them, and their number. -/
def stripTwos : Nat → Nat → Nat × Nat
  | 0, m => (m, 0)
  | fuel + 1, m => if m % 2 = 1 then (m, 0) else let r := stripTwos fuel (m / 2); (r.1, r.2 + 1)

/-- 1 ÷ √x (R198). -/
def fRsqrt : FV → FV
  | .nan => .nan
  | .inf s => if s then .nan else fZero false
  | .fin s m e =>
    if m = 0 then .inf s
    else if s then .nan
    else
      let p := stripTwos 64 m
      let e1 := e + p.2
      let odd := e1 % 2 ≠ 0
      let m2 := if odd then 2 * p.1 else p.1
      let e2 := if odd then e1 - 1 else e1
      let r := isqrt (2 ^ 300 / m2)
      let exact := r * r * m2 == 2 ^ 300
      fRnd fp32 false (.fin false (2 * r + b2n (!exact)) (-151 - e2 / 2))

/-- 1 ÷ (1 + e^-y) for a fixed-point y ≥ 0, or 1 ÷ (1 + e^y) when `neg`. -/
def fxSigmoid (neg : Bool) (y : Nat) : Nat :=
  let d := expDown y
  if neg then fxDiv d (fxOne + d) else fxDiv fxOne (fxOne + d)

/-- The sigmoid (R198). -/
def fSigmoid : FV → FV
  | .nan => .nan
  | .inf s => if s then fZero false else .fin false 1 0
  | .fin s m e =>
    if m = 0 then .fin false 1 (-1)
    else if magGe m e 104 then (if s then fZero false else .fin false 1 0)
    else fxRound false (fxSigmoid s (fxOf m e))

/-- tanh x (R198). Below 2^-13 the rounded value is x itself. -/
def fTanh : FV → FV
  | .nan => .nan
  | .inf s => .fin s 1 0
  | .fin s m e =>
    if m = 0 then fZero s
    else if !magGt m e 1 (-13) then .fin s m e
    else if magGe m e 20 then .fin s 1 0
    else
      let d := expDown (2 * fxOf m e)
      fxRound s (fxDiv (fxOne - d) (fxOne + d))

/-- The sum of t(n), where t(n+1) = t(n) x² / (2n+3). -/
def erfSeries (x2 : Nat) : Nat → Nat → Nat → Nat → Nat
  | 0, _, _, acc => acc
  | fuel + 1, n, t, acc =>
    if t = 0 then acc else erfSeries x2 fuel (n + 1) (fxMul t x2 / (2 * n + 3)) (acc + t)

/-- erf(x ÷ √2) for a fixed-point x from 0 to 16. -/
def fxErf2 (x : Nat) : Nat :=
  let x2 := fxMul x x
  fxMul (fxMul fxSqrt2Pi x) (fxMul (expDown (x2 / 2)) (erfSeries x2 1500 0 fxOne 0))

/-- 0.5 x (1 + erf(x ÷ √2)) (R198). -/
def fGelu : FV → FV
  | .nan => .nan
  | .inf s => if s then fZero true else .inf false
  | .fin s m e =>
    if m = 0 then fZero s
    else if magGe m e 16 then (if s then fZero true else .fin s m e)
    else
      let x := fxOf m e
      let r := fxErf2 x
      fxRound s (fxMul x (if s then fxOne - r else fxOne + r) / 2)

/-- 0.5 x (1 + tanh(√(2/π) (x + 0.044715 x³))), which is x times the sigmoid of twice the argument (R198). -/
def fGelut : FV → FV
  | .nan => .nan
  | .inf s => if s then fZero true else .inf false
  | .fin s m e =>
    if m = 0 then fZero s
    else if magGe m e 16 then (if s then fZero true else .fin s m e)
    else
      let x := fxOf m e
      let u := fxMul fxSqrt2Pi (x + 44715 * fxMul x (fxMul x x) / 1000000)
      fxRound s (fxMul x (fxSigmoid s (2 * u)))

/-- The function of code 0x10 to 0x17 on an FP32 value (R196). -/
def vxFn (c : Nat) (x : FV) : FV :=
  match c with
  | 0x10 => fExp x
  | 0x11 => fLog x
  | 0x12 => fRcp x
  | 0x13 => fRsqrt x
  | 0x14 => fSigmoid x
  | 0x15 => fTanh x
  | 0x16 => fGelu x
  | _ => fGelut x

/-- The flags of a function on an operand (R198, R210). -/
def vxFnFlags (c : Nat) (x y : FV) : Nat :=
  if x.isNan then vxNanIn
  else
    flagIf (x.isZero && (c == 0x11 || c == 0x12 || c == 0x13)) vxDivZero |||
    flagIf (y.isNan) vxInvalid |||
    flagIf (x.isFin && y.isInf && !x.isZero) vxOverflow

end Sys2Proof.Machine
end

