-- ==== Sys2Proof/Machine/Vector.lean ====
section
/-! DEFINITION. The vector engine (R186 to R210, R261 to R263): decoding a VOP or VRD and its descriptor, when they are
defined, what they take in ck, and what they write. -/

namespace Sys2Proof.Machine

/-- A vector instruction with its 64 B descriptor (R261, R262). -/
structure VecOp where
  red : Bool
  nonsat : Bool
  maskMode : Bool
  bitmap : Bool
  opt : Bool
  fn : Nat
  ct : Nat
  dst : Nat
  a : Nat
  b : Nat
  desc : Nat
  shift : Nat
  k : Nat
  resv : Nat
  d : List Byte
  deriving DecidableEq, Repr

/-- The fields of a VOP or VRD word. -/
def vecOfWord (w : Nat) (d : List Byte) : VecOp :=
  { red := bits w 0 4 == 6, nonsat := bitAt w 4, maskMode := bitAt w 5, bitmap := bitAt w 6, opt := bitAt w 7,
    fn := bits w 24 6, ct := bits w 30 2, dst := bits w 32 20, a := bits w 52 20, b := bits w 72 20,
    desc := bits w 92 20, shift := bits w 112 6, k := bits w 118 8, resv := bits w 126 2, d := d }

def VecOp.modeRaw (v : VecOp) (i : Nat) : Nat := at_ v.d i 1
def VecOp.mode (v : VecOp) (i : Nat) : Nat := bits (v.modeRaw i) 0 2
def VecOp.isAcm (v : VecOp) (i : Nat) : Bool := bitAt (v.modeRaw i) 2
def VecOp.isDef (v : VecOp) (i : Nat) : Bool := bitAt (v.modeRaw i) 3
def VecOp.fmt (v : VecOp) (i : Nat) : Nat := at_ v.d (4 + i) 1
def VecOp.pitch (v : VecOp) (i : Nat) : Nat := at_ v.d (8 + 4 * i) 4
def VecOp.addrC (v : VecOp) : Nat := at_ v.d 0x18 4
def VecOp.addrE (v : VecOp) : Nat := at_ v.d 0x1C 4
def VecOp.rowMask (v : VecOp) : Nat := at_ v.d 0x20 4
def VecOp.colMask (v : VecOp) : Nat := at_ v.d 0x24 4
def VecOp.dst2 (v : VecOp) : Nat := at_ v.d 0x28 4
def VecOp.dst3 (v : VecOp) : Nat := at_ v.d 0x2C 4
def VecOp.scalar (v : VecOp) (i : Nat) : Nat := at_ v.d (0x30 + 4 * i) 4
/-- The destination format code. -/
def VecOp.fmtD (v : VecOp) : Nat := v.fmt 3
def VecOp.pitchD (v : VecOp) : Nat := v.pitch 3
/-- The format code of the compute type (R261). -/
def VecOp.ctFmt (v : VecOp) : Nat := match v.ct with | 0 => 14 | 1 => 15 | 2 => 7 | _ => 6
def VecOp.ctInt (v : VecOp) : Bool := v.ct == 1
def VecOp.ct16 (v : VecOp) : Bool := v.ct ≥ 2
def VecOp.ctF (v : VecOp) : FFmt := ffmtOf v.ctFmt

/-- A float function of codes 0x10 to 0x17. -/
def VecOp.isFun (v : VecOp) : Bool := !v.red && 0x10 ≤ v.fn && v.fn ≤ 0x17
def VecOp.isCmp (v : VecOp) : Bool := !v.red && 0x0A ≤ v.fn && v.fn ≤ 0x0D
def VecOp.isElem (v : VecOp) : Bool := !v.red && 1 ≤ v.fn && v.fn ≤ 0x18
def VecOp.isTopk (v : VecOp) : Bool := v.red && v.fn == 7
def VecOp.isSoftmax (v : VecOp) : Bool := !v.red && v.fn == 0x20
def VecOp.isNorm (v : VecOp) : Bool := !v.red && v.fn == 0x21
def VecOp.isNms (v : VecOp) : Bool := !v.red && v.fn == 0x22
def VecOp.isRqnt (v : VecOp) : Bool := !v.red && v.fn == 0x0F
def VecOp.isCvt (v : VecOp) : Bool := !v.red && v.fn == 1

/-- The function uses source B (R263). -/
def VecOp.usesB (v : VecOp) : Bool :=
  !v.red && ((2 ≤ v.fn && v.fn ≤ 7) || v.isCmp || v.fn == 0x0E || v.fn == 0x0F || v.fn == 0x18 ||
    v.fn == 0x21 || (v.fn == 0x22 && v.opt))

/-- The function uses source C (R263). -/
def VecOp.usesC (v : VecOp) : Bool := !v.red && (v.fn == 5 || v.fn == 0x0E || v.fn == 0x0F || v.fn == 0x21)

/-- The function uses source E (R263). -/
def VecOp.usesE (v : VecOp) : Bool := !v.red && (v.fn == 0x20 || v.fn == 0x21 || v.fn == 0x22)

/-- The function uses DST2 (R263). -/
def VecOp.usesDst2 (v : VecOp) : Bool := v.isTopk || v.isNms || (v.isCvt && fmtIsMx v.fmtD)

/-- A mode byte of an operand in use: reserved bits 0, the ACM bit for A in VEC mode only, DEFAULT where R262 allows. -/
def VecOp.modeOk (v : VecOp) (i : Nat) (used : Bool) : Bool :=
  let r := v.modeRaw i
  if !used then r == 0
  else r < 16 && (!v.isAcm i || (i == 0 && v.mode 0 == 0)) &&
    (!v.isDef i || (i == 3 && v.isSoftmax) || (i == 1 && v.isNorm) || (i == 2 && v.isNorm)) &&
    (i != 3 || v.mode 3 == 1 || v.mode 3 == 3 || v.isDef 3) &&
    (!(v.isNorm && (i == 1 || i == 2)) || v.isDef i || v.mode i == 2)

/-- A descriptor byte address (R249). -/
def addrOk (a : Nat) : Bool := a < 2 ^ 26 && a % 64 == 0

/-- Operand bytes of a view of `r` rows by `c` elements. -/
def viewEnd (base pitch r c eb : Nat) : Nat :=
  if r = 0 ∨ c = 0 then base else base + (r - 1) * pitch + ceilDiv (c * eb) 8

/-- One past the last byte of operand `i` at planned lengths. -/
def VecOp.srcEnd (v : VecOp) (i vlp vrp : Nat) : Nat :=
  let base := if i = 0 then 64 * v.a else if i = 1 then 64 * v.b else if i = 2 then v.addrC else v.addrE
  let eb := if i = 3 then 32 else fmtBits (v.fmt i)
  if v.isDef i || v.mode i == 3 || v.isAcm i then 0
  else if v.isNms && i == 0 then viewEnd base 0 1 vlp 128
  else if v.isNms && i == 1 then viewEnd base 0 1 vlp 32
  else match v.mode i with
    | 0 => viewEnd base (v.pitch i) vrp vlp eb
    | 1 => viewEnd base 0 1 vrp eb
    | _ => viewEnd base 0 1 vlp eb

/-- Scale bytes of an MX region at planned lengths (R262). -/
def mxScaleEnd (base vlp vrp : Nat) : Nat :=
  viewEnd base (roundUp (ceilDiv vlp 32) 64) vrp (ceilDiv vlp 32) 8

/-- One past the last byte of the destinations at planned lengths, greatest of all outputs. -/
def VecOp.dstEnd (v : VecOp) (vlp vrp : Nat) : Nat :=
  let d := 64 * v.dst
  let eb := fmtBits v.fmtD
  if v.bitmap then viewEnd d 0 1 vlp 1
  else if v.isNms then max (viewEnd d 0 1 vlp 1) (max (v.dst2 + 4) (viewEnd v.dst3 0 1 vlp 32))
  else if v.isTopk then max (viewEnd d v.pitchD vrp (v.k + 1) eb) (viewEnd v.dst2 v.pitchD vrp (v.k + 1) 32)
  else if v.red then viewEnd d v.pitchD vrp 1 (if 4 ≤ v.fn then 32 else eb)
  else max (viewEnd d v.pitchD vrp vlp eb) (if v.isCvt && fmtIsMx v.fmtD then mxScaleEnd v.dst2 vlp vrp else 0)

/-- MEAN, ARGMAX and ARGMIN ignore FMT_DST (R263). -/
def VecOp.fmtFree (v : VecOp) : Bool := v.red && 4 ≤ v.fn && v.fn ≤ 6

/-- Not an undefined encoding (R188, R196 to R200, R208, R209, R248, R261, R262). -/
def VecOp.defined (v : VecOp) (vlp vrp cspBytes acmBytes : Nat) : Bool :=
  let mxA := fmtIsMx (v.fmt 0)
  let mxD := fmtIsMx v.fmtD
  let i12 := [0, 1, 2].filter fun i => i == 0 || (i == 1 && v.usesB) || (i == 2 && v.usesC)
  v.resv == 0 &&
  (if v.red then v.fn ≤ 7 else v.isElem || v.isSoftmax || v.isNorm || v.isNms) &&
  (v.shift == 0 || v.isRqnt) && (v.k == 0 || v.isTopk) && (!v.opt || v.isNorm || v.isNms) &&
  (!v.bitmap || (v.isCmp && vrp == 1)) && (!v.maskMode || v.isElem) &&
  (v.usesB || v.b == 0) &&
  v.modeOk 0 true && v.modeOk 1 v.usesB && v.modeOk 2 v.usesC && v.modeOk 3 v.usesE &&
  (upTo 4).all (fun i => v.fmt i < 16) && (upTo 4).all (fun i => v.pitch i % 64 == 0) &&
  (v.usesB || (v.fmt 1 == 0 && v.pitch 1 == 0 && v.scalar 1 == 0)) &&
  (v.usesC || (v.fmt 2 == 0 && v.pitch 2 == 0 && v.scalar 2 == 0 && (v.addrC == 0 || (v.isCvt && mxA)))) &&
  (v.usesE || (v.addrE == 0 && v.scalar 3 == 0)) &&
  (v.usesDst2 || v.dst2 == 0) && (v.isNms || v.dst3 == 0) &&
  addrOk v.addrC && addrOk v.addrE && addrOk v.dst2 && addrOk v.dst3 &&
  (v.rowMask == 0xFFFFFFFF || addrOk v.rowMask) && (v.colMask == 0xFFFFFFFF || addrOk v.colMask) &&
  (!v.isAcm 0 || (v.a < 8192 && vlp ≤ 64 && v.a + vrp ≤ acmBytes / 256 && (v.fmt 0 == 14 || v.fmt 0 == 15))) &&
  -- formats: MX only in CVT, a float source with CT INT32 only in CVT
  ((!mxA && (!mxD || v.fmtFree)) || v.isCvt) && !i12.any (fun i => i != 0 && fmtIsMx (v.fmt i)) &&
  (!mxA || v.mode 0 == 0) &&
  (!v.ctInt || v.isCvt || i12.all (fun i => fmtIsInt (v.fmt i))) &&
  (!v.isRqnt || (v.ctInt && fmtIsInt v.fmtD)) &&
  (!(v.isFun || (!v.red && v.fn == 0x18)) || !v.ctInt) &&
  (!v.ctInt || !v.usesE || (v.isSoftmax && v.isDef 3)) &&
  (!v.isTopk || max (roundUp (4 * (v.k + 1)) 64) (roundUp (ceilDiv ((v.k + 1) * fmtBits v.fmtD) 8) 64) ≤ v.pitchD) &&
  (!v.isNms || (vlp ≤ 4096 && vrp == 1 && v.modeRaw 0 == 0 && v.fmt 0 == 14 && v.mode 3 == 3 &&
    v.pitch 0 == 0 && v.fmtD == 0 && v.pitchD == 0 && (!v.opt || (v.modeRaw 1 == 0 && v.fmt 1 == 15 && v.pitch 1 == 0)))) &&
  -- extents at planned lengths
  64 * v.desc + 64 ≤ cspBytes &&
  v.srcEnd 0 vlp vrp ≤ cspBytes && (!v.usesB || v.srcEnd 1 vlp vrp ≤ cspBytes) &&
  (!v.usesC || v.srcEnd 2 vlp vrp ≤ cspBytes) && (!v.usesE || v.srcEnd 3 vlp vrp ≤ cspBytes) &&
  v.dstEnd vlp vrp ≤ cspBytes &&
  (!mxA || mxScaleEnd v.addrC vlp vrp ≤ cspBytes) &&
  (v.rowMask == 0xFFFFFFFF || viewEnd v.rowMask 0 1 vrp 1 ≤ cspBytes) &&
  (v.colMask == 0xFFFFFFFF || viewEnd v.colMask 0 1 vlp 1 ≤ cspBytes)

/-- Three scratchpad streams are read (R194). -/
def VecOp.threeStreams (v : VecOp) : Bool :=
  let st := fun i => !v.isDef i && !v.isAcm i && (v.mode i == 0 || v.mode i == 2)
  st 0 && v.usesB && st 1 && v.usesC && st 2

/-- The cost c of the function (R196, R194). -/
def VecOp.cost (v : VecOp) : Nat :=
  let c := if v.red then 1
    else if v.fn == 0x16 || v.fn == 0x17 then 6
    else if 0x10 ≤ v.fn && v.fn ≤ 0x18 then 4 else 1
  if v.threeStreams then 2 * c else c

/-- Elements in a ck (R194). -/
def VecOp.rate (v : VecOp) : Nat :=
  if v.ct16 && !(!v.red && 0x10 ≤ v.fn) then 2048 else 1024

/-- Occupancy O in ck (R194). -/
def VecOp.occ (v : VecOp) (vlp vrp : Nat) : Nat :=
  let rows := ceilDiv vlp 1024
  if v.isTopk then vrp * (2 * rows + 2 * (v.k + 1) + 40)
  else if v.red then vrp * ceilDiv vlp v.rate * v.cost + 20
  else if v.isSoftmax then vrp * (9 * rows + 40)
  else if v.isNorm then vrp * (5 * rows + 48)
  else if v.isNms then 64 + ceilDiv (vlp * (vlp - 1)) 2048
  else max 1 (ceilDiv (vrp * vlp) v.rate * v.cost)

/-- A value in the compute type. -/
inductive Val where
  | f (v : FV)
  | i (n : Int)
  deriving DecidableEq, Repr

def Val.isNan : Val → Bool
  | .f v => v.isNan
  | .i _ => false

def Val.fv : Val → FV
  | .f v => v
  | .i n => fOfInt n

def Val.int : Val → Int
  | .f _ => 0
  | .i n => n

/-- A source element in the compute type (R188). -/
def toCt (v : VecOp) (c : Nat) (x : FV) : Val × Nat :=
  if v.ctInt then
    if fmtIsInt c then
      match x with
      | .fin s m _ => (.i (sInt s m), 0)
      | _ => (.i 0, 0)
    else let r := cvtIntRange (-2147483648) 2147483647 x; (.i r.1, r.2)
  else
    match x with
    | .fin s m e =>
      let r := cvtFloat v.ctF v.nonsat (.fin s m e)
      (.f (fDec v.ctF r.1), r.2)
    | y => (.f y, 0)

/-- The raw element (i, j) of operand `n` (R187); MX elements take their block scale. -/
def VecOp.rawElem (v : VecOp) (c : CoreMem) (n vlp i j : Nat) : FV :=
  let fmt := if n = 3 then 14 else v.fmt n
  let base := if n = 0 then 64 * v.a else if n = 1 then 64 * v.b else if n = 2 then v.addrC else v.addrE
  let eb := fmtBits fmt
  match v.mode n with
  | 0 =>
    if v.isAcm n then elemVal fmt (acmWord c (v.a + i) j)
    else
      let x := elemVal fmt (memBits c.csp (8 * (base + i * v.pitch n) + j * eb) eb)
      if fmtIsMx fmt then
        mxScale (memNat c.csp (v.addrC + i * roundUp (ceilDiv vlp 32) 64 + j / 32) 1) x
      else x
  | 1 => elemVal fmt (memBits c.csp (8 * base + i * eb) eb)
  | 2 => elemVal fmt (memBits c.csp (8 * base + j * eb) eb)
  | _ => if v.ctInt && n != 3 then fOfInt (sext 32 (v.scalar n)) else fDec fp32 (v.scalar n)

/-- Operand `n` at (i, j) in the compute type, with the flags of its conversion and of a NaN (R188, R210). -/
def VecOp.src (v : VecOp) (c : CoreMem) (n vlp i j : Nat) : Val × Nat :=
  let fmt := if v.mode n == 3 then (if v.ctInt then 15 else 14) else v.fmt n
  let r := toCt v fmt (v.rawElem c n vlp i j)
  (r.1, r.2 ||| flagIf (r.1.isNan || (v.rawElem c n vlp i j).isNan) vxNanIn)

/-- A mask bit (R193). -/
def maskBit (c : CoreMem) (addr k : Nat) : Bool :=
  addr == 0xFFFFFFFF || bitAt (memNat c.csp (addr + k / 8) 1) (k % 8)

/-- Element (i, j) is enabled (R193). -/
def VecOp.on (v : VecOp) (c : CoreMem) (i j : Nat) : Bool := maskBit c v.rowMask i && maskBit c v.colMask j

/-- Flags of a float operation from its operands and result (R197, R210). -/
def opFlags (xs : List FV) (r : FV) : Nat :=
  if xs.any FV.isNan then 0
  else flagIf r.isNan vxInvalid ||| flagIf (r.isInf && xs.all FV.isFin) vxOverflow

/-- An INT32 result, clamped (R197). -/
def intClamp (n : Int) : Val × Nat :=
  let r := clampI (-2147483648) 2147483647 n
  (.i r, flagIf (decide (r ≠ n)) vxIntSat)

/-- The comparison of codes 0x0A to 0x0D (R199). -/
def cmpVal (fn : Nat) (x y : Val) : Bool :=
  match x, y with
  | .i a, .i b =>
    if fn = 0x0A then decide (a = b) else if fn = 0x0B then decide (a < b) else if fn = 0x0C then decide (a ≤ b)
    else decide (a ≠ b)
  | _, _ =>
    let a := x.fv
    let b := y.fv
    if fn = 0x0A then fEq a b else if fn = 0x0B then fLt a b else if fn = 0x0C then fLt a b || fEq a b
    else !fEq a b

/-- Elementwise functions 0x02 to 0x18 in the compute type, comparisons apart (R196 to R199). -/
def elemFn (v : VecOp) (x y z : Val) : Val × Nat :=
  if v.ctInt then
    let a := x.int
    let b := y.int
    match v.fn with
    | 2 => intClamp (a + b)
    | 3 => intClamp (a - b)
    | 4 => intClamp (a * b)
    | 5 => intClamp (a * b + z.int)
    | 6 => (.i (min a b), 0)
    | 7 => (.i (max a b), 0)
    | 8 => intClamp (a.natAbs : Int)
    | 9 => intClamp (-a)
    | 0x0E => (if a ≠ 0 then y else z, 0)
    | _ => (x, 0)
  else
    let f := v.ctF
    let a := x.fv
    let b := y.fv
    let r2 := fun (r : FV) => (Val.f r, opFlags [a, b] r)
    match v.fn with
    | 2 => r2 (fAdd f a b)
    | 3 => r2 (fSub f a b)
    | 4 => r2 (fMul f a b)
    | 5 => let r := fFma f a b z.fv; (.f r, opFlags [a, b, z.fv] r)
    | 6 => (.f (fMin a b), 0)
    | 7 => (.f (fMax a b), 0)
    | 8 => (.f (fAbs a), 0)
    | 9 => (.f (fNeg a), 0)
    | 0x0E => (if a.isZero then z else y, 0)
    | 0x18 =>
      let r := fDiv f a b
      if b.isZero && a.isFin && !a.isZero then (.f r, vxDivZero) else r2 r
    | c => if 0x10 ≤ c then let r := vxFn c a; (.f r, vxFnFlags c a r) else (x, 0)

/-- RQNT without the clamp (R200). -/
def rqnt (a m z : Int) (s : Nat) : Int :=
  let t := a * m
  (if s = 0 then t else (t + (2 ^ (s - 1) : Nat)) / ((2 ^ s : Nat) : Int)) + z

/-- The encoding of a result in the destination format; a result already in that format is stored as it is (R197). -/
def VecOp.store (v : VecOp) (resFmt : Nat) (x : Val) : Flagged :=
  if v.fmtD = resFmt then
    match x with
    | .f y => (fEnc (ffmtOf resFmt) y, 0)
    | .i n => (wrapInt 32 n, 0)
  else cvtTo v.fmtD v.nonsat x.fv

/-- The format code of the value `elemFn` gives: functions 0x10 to 0x17 give FP32 (R198). -/
def VecOp.resFmt (v : VecOp) : Nat := if v.isFun then 14 else v.ctFmt

/-- The result of an elementwise function at (i, j): the encoding and the flags. -/
def VecOp.elemRes (v : VecOp) (c : CoreMem) (vlp i j : Nat) : Flagged :=
  let x := v.src c 0 vlp i j
  let y := if v.usesB then v.src c 1 vlp i j else (.i 0, 0)
  let z := if v.usesC then v.src c 2 vlp i j else (.i 0, 0)
  let fl := x.2 ||| y.2 ||| z.2
  if v.isRqnt then
    let n := rqnt x.1.int y.1.int z.1.int v.shift
    let r := clampI (intRange v.fmtD).1 (intRange v.fmtD).2 n
    (wrapInt (fmtBits v.fmtD) r, fl ||| flagIf (decide (r ≠ n)) flRange)
  else if v.isCmp then
    let t := cmpVal v.fn x.1 y.1
    (if fmtIsInt v.fmtD then b2n t else fEnc (ffmtOf v.fmtD) (.fin false (b2n t) 0), fl)
  else
    let r := elemFn v x.1 y.1 z.1
    let e := v.store v.resFmt r.1
    (e.1, fl ||| r.2 ||| e.2)

/-- The bit address of destination element (i, j). -/
def VecOp.dstBit (v : VecOp) (i j : Nat) : Nat := 8 * (64 * v.dst + i * v.pitchD) + j * fmtBits v.fmtD

/-- Writes and flags. -/
abbrev Out := List EWrite × Nat

/-- Joins outputs in order. -/
def joinOut (l : List Out) : Out := (l.flatMap (·.1), l.foldl (fun n o => n ||| o.2) 0)

/-- Elementwise element (i, j): a write or none (R193, R199). -/
def VecOp.elemOut (v : VecOp) (c : CoreMem) (vlp i j : Nat) : Out :=
  if v.bitmap then
    if v.on c i j then
      let r := v.elemRes c vlp i j
      let x := v.src c 0 vlp i j
      let y := v.src c 1 vlp i j
      ([wr (8 * 64 * v.dst + j) 1 (b2n (cmpVal v.fn x.1 y.1))], r.2)
    else if v.maskMode then ([wrOff (8 * 64 * v.dst + j) 1 0], 0) else ([], 0)
  else if v.on c i j then
    let r := v.elemRes c vlp i j
    ([wr (v.dstBit i j) (fmtBits v.fmtD) r.1], r.2)
  else if v.maskMode then ([wrOff (v.dstBit i j) (fmtBits v.fmtD) 0], 0)
  else ([], 0)

/-- A 32-element block of a CVT to an MX format (R181): block `k` of row `i`. -/
def VecOp.mxBlockOut (v : VecOp) (c : CoreMem) (vl vlp i k : Nat) : Out :=
  let js := (upTo 32).map (32 * k + ·) |>.filter (· < vl)
  let en := js.filter (v.on c i)
  let srcs := en.map fun j => v.src c 0 vlp i j
  let sc := mxBlockScale v.fmtD v.nonsat (srcs.map fun x => x.1.fv)
  let scBit := 8 * (v.dst2 + i * roundUp (ceilDiv vlp 32) 64 + k)
  let eb := fmtBits v.fmtD
  if en.isEmpty then
    if v.maskMode ∧ ¬ js.isEmpty then
      (js.map (fun j => wrOff (v.dstBit i j) eb 0) ++ [wrOff scBit 8 127], 0)
    else ([], 0)
  else
    let fl := srcs.foldl (fun n x => n ||| x.2) sc.2.2
    let ws := js.flatMap fun j =>
      if v.on c i j then
        [wr (v.dstBit i j) eb (if sc.2.1 then 0 else mxElem v.fmtD sc.1 (v.src c 0 vlp i j).1.fv)]
      else if v.maskMode then [wrOff (v.dstBit i j) eb 0] else []
    (ws ++ [wr scBit 8 sc.1], fl)

/-- The zero bits past VL of a bitmap's last byte (R199). -/
def VecOp.bitmapTail (v : VecOp) (vl vlp : Nat) : List EWrite :=
  ((upTo (8 * ceilDiv vlp 8)).filter (vl ≤ ·)).map fun j => wrOff (8 * 64 * v.dst + j) 1 0

/-- Lane accumulators of a row (R201). -/
abbrev Lanes := List (Option Val)

/-- Combines two inputs of a reduction (R201, R202): an empty input passes the other. -/
def comb (f : Val → Val → Val × Nat) (a b : Option Val × Nat) : Option Val × Nat :=
  match a.1, b.1 with
  | some x, some y => let r := f x y; (some r.1, a.2 ||| b.2 ||| r.2)
  | some x, none => (some x, a.2 ||| b.2)
  | none, y => (y, a.2 ||| b.2)

/-- Adds a group of up to 1,024 elements to the lanes, in place. -/
def laneStep (f : Val → Val → Val × Nat) : List (Option Val × Nat) → List (Option Val) → List (Option Val × Nat)
  | l :: ls, x :: xs => comb f l (x, 0) :: laneStep f ls xs
  | ls, _ => ls

/-- Cuts a row into groups of 1,024. -/
def groups1k {α : Type} : Nat → List α → List (List α)
  | 0, _ => []
  | n + 1, l => if l.isEmpty then [] else l.take 1024 :: groups1k n (l.drop 1024)

/-- One level of the tree (R202). -/
def treeLevel (f : Val → Val → Val × Nat) : List (Option Val × Nat) → List (Option Val × Nat)
  | a :: b :: l => comb f a b :: treeLevel f l
  | l => l

/-- `n` levels of the tree. -/
def tree (f : Val → Val → Val × Nat) : Nat → List (Option Val × Nat) → List (Option Val × Nat)
  | 0, l => l
  | n + 1, l => tree f n (treeLevel f l)

/-- The reduction of a row of elements, empty where disabled (R201, R202). -/
def reduceRow (f : Val → Val → Val × Nat) (xs : List (Option Val)) : Option Val × Nat :=
  let lanes := (groups1k (xs.length / 1024 + 1) xs).foldl (laneStep f) (List.replicate 1024 (none, 0))
  match tree f 10 lanes with
  | r :: _ => r
  | [] => (none, 0)

/-- A float addition as a combination. -/
def combAdd (f : FFmt) (x y : Val) : Val × Nat :=
  let r := fAdd f x.fv y.fv
  (.f r, opFlags [x.fv, y.fv] r)

/-- The FP32 tree sum of a row (R205). -/
def treeSum (xs : List (Option FV)) : FV × Nat :=
  let r := reduceRow (combAdd fp32) (xs.map fun x => x.map Val.f)
  ((r.1.map Val.fv).getD (fZero false), r.2)

/-- `a` ranks strictly above `b` (R203), or below for MIN. -/
def better (isMax : Bool) (a b : Val) : Bool :=
  match a, b with
  | .i x, .i y => if isMax then decide (y < x) else decide (x < y)
  | _, _ => if isMax then fLtZ b.fv a.fv else fLtZ a.fv b.fv

/-- The best element with the lowest column (R203). -/
def bestIdx (isMax : Bool) : List (Nat × Val) → Option (Nat × Val)
  | [] => none
  | p :: ps =>
    match bestIdx isMax ps with
    | none => some p
    | some q => if better isMax q.2 p.2 then some q else some p

/-- The enabled elements of row `i` with their columns. -/
def VecOp.rowElems (v : VecOp) (c : CoreMem) (vl vlp i : Nat) : List (Nat × Val × Nat) :=
  ((upTo vl).filter (v.on c i)).map fun j => let r := v.src c 0 vlp i j; (j, r.1, r.2)

/-- A literal infinity, or the extreme integer, in the destination format (R204, R208). -/
def VecOp.extreme (v : VecOp) (low : Bool) : Flagged :=
  if fmtIsInt v.fmtD then
    (wrapInt (fmtBits v.fmtD) (if low then (intRange v.fmtD).1 else (intRange v.fmtD).2), 0)
  else if (ffmtOf v.fmtD).special = .ieee then (fEnc (ffmtOf v.fmtD) (.inf low), 0)
  else cvtFloat (ffmtOf v.fmtD) v.nonsat (.inf low)

/-- The output of a reduction other than TOPK on row `i` (R201 to R204). -/
def VecOp.redOut (v : VecOp) (c : CoreMem) (vl vlp i : Nat) : Out :=
  let el := v.rowElems c vl vlp i
  let fl := el.foldl (fun n e => n ||| e.2.2) 0
  let opt : List (Option Val) := (upTo vl).map fun j => if v.on c i j then some (v.src c 0 vlp i j).1 else none
  let out := fun (bitsN : Nat) (r : Flagged) => (([wr (v.dstBit i 0) bitsN r.1], fl ||| r.2) : Out)
  let eb := fmtBits v.fmtD
  let srcInt := if v.mode 0 == 3 then v.ctInt else fmtIsInt (v.fmt 0)
  if el.isEmpty then
    match v.fn with
    | 0 => out eb (0, vxEmpty)
    | 1 => out eb (if fmtIsInt v.fmtD then 1 else fEnc (ffmtOf v.fmtD) (.fin false 1 0), vxEmpty)
    | 2 => let r := v.extreme true; out eb (r.1, r.2 ||| vxEmpty)
    | 3 => let r := v.extreme false; out eb (r.1, r.2 ||| vxEmpty)
    | 4 => out 32 (0x7FC00000, vxEmpty)
    | _ => out 32 (0xFFFFFFFF, vxEmpty)
  else
    match v.fn with
    | 0 =>
      if v.ctInt then
        let s : Int := el.foldl (fun (t : Int) e => t + e.2.1.int) 0
        if fmtIsInt v.fmtD then
          let r := clampI (intRange v.fmtD).1 (intRange v.fmtD).2 s
          out eb (wrapInt eb r, flagIf (decide (r ≠ s)) vxIntSat)
        else out eb (cvtFloat (ffmtOf v.fmtD) v.nonsat (fOfInt s))
      else
        let r := reduceRow (combAdd v.ctF) opt
        let e := v.store v.ctFmt (r.1.getD (.i 0))
        out eb (e.1, r.2 ||| e.2)
    | 1 =>
      let mulF := fun (x y : Val) =>
        if v.ctInt then intClamp (x.int * y.int)
        else let r := fMul v.ctF x.fv y.fv; (Val.f r, opFlags [x.fv, y.fv] r)
      let r := reduceRow mulF opt
      let e := v.store v.ctFmt (r.1.getD (.i 0))
      out eb (e.1, r.2 ||| e.2)
    | 4 =>
      let n := el.length
      if srcInt then
        let s : Int := el.foldl (fun (t : Int) e =>
          t + (match v.rawElem c 0 vlp i e.1 with | .fin s m _ => sInt s m | _ => 0)) 0
        out 32 (fEnc fp32 (fDiv fp32 (fOfInt s) (fOfInt n)), 0)
      else
        let r := treeSum (opt.map fun x => x.map Val.fv)
        let q := fDiv fp32 r.1 (fOfInt n)
        out 32 (fEnc fp32 q, r.2)
    | fn =>
      let isMax := fn = 2 ∨ fn = 5
      let nans := el.filter fun e => e.2.1.isNan
      if fn ≤ 3 then
        match nans with
        | _ :: _ => out eb (v.store v.ctFmt (.f .nan))
        | [] =>
          match bestIdx isMax (el.map fun e => (e.1, e.2.1)) with
          | some b => out eb (v.store v.ctFmt b.2)
          | none => ([], fl)
      else
        match nans with
        | e :: _ => out 32 (e.1, 0)
        | [] =>
          match bestIdx isMax (el.map fun e => (e.1, e.2.1)) with
          | some b => out 32 (b.1, 0)
          | none => ([], fl)

/-- TOPK's order: NaN above +∞, then R203, the lower column first on a tie (R208). -/
def topAbove (a b : Nat × Val) : Bool :=
  if a.2.isNan then !b.2.isNan || a.1 < b.1
  else if b.2.isNan then false
  else better true a.2 b.2 || (!better true b.2 a.2 && a.1 < b.1)

/-- Insertion into a list in descending order. -/
def insertTop (a : Nat × Val) : List (Nat × Val) → List (Nat × Val)
  | [] => [a]
  | b :: bs => if topAbove a b then a :: b :: bs else b :: insertTop a bs

/-- TOPK on row `i` (R208). -/
def VecOp.topkOut (v : VecOp) (c : CoreMem) (vl vlp i : Nat) : Out :=
  let el := v.rowElems c vl vlp i
  let fl := el.foldl (fun n e => n ||| e.2.2) 0
  let sorted := (el.foldl (fun l e => insertTop (e.1, e.2.1) l) []).take (v.k + 1)
  let eb := fmtBits v.fmtD
  let fill := v.extreme true
  joinOut ([([], fl ||| flagIf (el.length < v.k + 1) vxShort ||| flagIf el.isEmpty vxEmpty)] ++
    (upTo (v.k + 1)).map fun n =>
      match sorted[n]? with
      | some p =>
        let e := v.store v.ctFmt p.2
        ([wr (v.dstBit i n) eb e.1, wr (8 * (v.dst2 + i * v.pitchD) + 32 * n) 32 p.1], e.2)
      | none =>
        ([wr (v.dstBit i n) eb fill.1, wr (8 * (v.dst2 + i * v.pitchD) + 32 * n) 32 0xFFFFFFFF], fill.2))

/-- The FP32 value of source A at (i, j): every step of the macro-operations is FP32 (R205). -/
def VecOp.macroElem (v : VecOp) (c : CoreMem) (vlp i j : Nat) : FV × Nat :=
  let x := v.src c 0 vlp i j
  (x.1.fv, x.2)

/-- SOFTMAX on row `i` (R206). -/
def VecOp.softmaxOut (v : VecOp) (c : CoreMem) (vl vlp i : Nat) : Out :=
  let tau := if v.isDef 3 then FV.fin false 1 0 else v.rawElem c 3 vlp i 0
  let xs : List (Option (FV × Nat)) := (upTo vl).map fun j =>
    if v.on c i j then
      let x := v.macroElem c vlp i j
      let y := fMul fp32 x.1 tau
      some (y, x.2 ||| flagIf tau.isNan vxNanIn ||| opFlags [x.1, tau] y)
    else none
  let en := xs.filterMap id
  let fl := en.foldl (fun n e => n ||| e.2) 0
  let put := fun (f : FV → Flagged) (extra : Nat) =>
    joinOut ([([], fl ||| extra)] ++ (upTo vl).map fun j =>
      match (xs[j]?).getD none with
      | some e => let r := f e.1; ([wr (v.dstBit i j) (fmtBits v.fmtD) r.1], r.2)
      | none => ([wrOff (v.dstBit i j) (fmtBits v.fmtD) 0], 0))
  let st := fun x => v.store 14 (Val.f x)
  let k := (en.filter fun e => e.1.isInf && !e.1.neg).length
  if en.isEmpty then put (fun _ => (0, 0)) vxEmpty
  else if en.any fun e => e.1.isNan then put (fun _ => st .nan) vxNanIn
  else if 0 < k then
    put (fun x => if x.isInf && !x.neg then st (fDiv fp32 (.fin false 1 0) (fOfInt k)) else st (fZero false)) vxRowInf
  else if en.all fun e => e.1.isInf then put (fun _ => st (fZero false)) vxEmpty
  else
    let m := en.foldl (fun a e => fMax a e.1) (.inf true)
    let ex := fun x => fExp (fSub fp32 x m)
    let s := treeSum (xs.map fun e => e.map fun p => ex p.1)
    let low := en.foldl (fun n e => n ||| opFlags [e.1, m] (fSub fp32 e.1 m)) 0
    put (fun x => st (fDiv fp32 (ex x) s.1)) (s.2 ||| low)

/-- LAYERNORM on row `i` (R207). -/
def VecOp.normOut (v : VecOp) (c : CoreMem) (vl vlp i : Nat) : Out :=
  let xs : List (Option (FV × Nat)) := (upTo vl).map fun j =>
    if v.on c i j then some (v.macroElem c vlp i j) else none
  let en := xs.filterMap id
  let fl := en.foldl (fun n e => n ||| e.2) 0
  let n := en.length
  let put := fun (f : Nat → FV → Flagged) (extra : Nat) =>
    joinOut ([([], fl ||| extra)] ++ (upTo vl).map fun j =>
      match (xs[j]?).getD none with
      | some e => let r := f j e.1; ([wr (v.dstBit i j) (fmtBits v.fmtD) r.1], r.2)
      | none => ([wrOff (v.dstBit i j) (fmtBits v.fmtD) 0], 0))
  let st := fun x => v.store 14 (Val.f x)
  let coef := fun (k : Nat) (one : FV) (j : Nat) =>
    if v.isDef k then (one, 0) else let r := v.src c k vlp i j; (r.1.fv, r.2)
  let beta := coef 2 (fZero false)
  let gamma := coef 1 (.fin false 1 0)
  if en.isEmpty then put (fun _ _ => (0, 0)) vxEmpty
  else if en.any fun e => !e.1.isFin then put (fun _ _ => st .nan) vxNanIn
  else
    let all := fun (f : FV → FV × Nat) => en.foldl (fun a e => a ||| (f e.1).2) 0
    let s := treeSum (xs.map fun e => e.map fun p => p.1)
    let mu := if v.opt then (fZero false, 0)
      else let r := fDiv fp32 s.1 (fOfInt n); (r, s.2 ||| opFlags [s.1, fOfInt n] r)
    let d := fun x => if v.opt then (x, 0) else let r := fSub fp32 x mu.1; (r, opFlags [x, mu.1] r)
    let sq := fun x => let y := (d x).1; let r := fMul fp32 y y; (r, (d x).2 ||| opFlags [y, y] r)
    let s2 := treeSum (xs.map fun e => e.map fun p => (sq p.1).1)
    let var := fDiv fp32 s2.1 (fOfInt n)
    let eps := v.rawElem c 3 vlp i 0
    let q := fAdd fp32 var eps
    let fl := mu.2 ||| all sq ||| s2.2 ||| opFlags [s2.1, fOfInt n] var ||| flagIf eps.isNan vxNanIn |||
      opFlags [var, eps] q
    if q.isZero then put (fun j _ => let b := beta j; let e := st b.1; (e.1, e.2 ||| b.2)) (vxDivZero ||| fl)
    else
      let r := fRsqrt q
      put (fun j x =>
        let g := gamma j
        let b := beta j
        let t := fMul fp32 (d x).1 r
        let y := fFma fp32 t g.1 b.1
        let e := st y
        (e.1, e.2 ||| g.2 ||| b.2 ||| opFlags [(d x).1, r] t ||| opFlags [t, g.1, b.1] y))
        (fl ||| (if q.isNan then 0 else vxFnFlags 0x13 q r))

/-- A box of NMS: four FP32 corners. -/
abbrev Box := FV × FV × FV × FV

def relu (x : FV) : FV := fMax (fZero false) x

/-- A value and the flags its computation has raised. -/
abbrev FFlag := FV × Nat

/-- An operation of two values, with its flags (R197, R210). -/
def flagged2 (f : FV → FV → FV) (a b : FFlag) : FFlag :=
  let r := f a.1 b.1
  (r, a.2 ||| b.2 ||| opFlags [a.1, b.1] r)

/-- The length of a side, at least 0 (R209). -/
def sideLen (hi lo : FV) : FFlag :=
  let r := flagged2 (fSub fp32) (hi, 0) (lo, 0)
  (relu r.1, r.2)

/-- The area of a box (R209). -/
def boxArea (b : Box) : FFlag := flagged2 (fMul fp32) (sideLen b.2.2.1 b.1) (sideLen b.2.2.2 b.2.1)

/-- The intersection of two boxes (R209). -/
def boxInter (a b : Box) : FFlag :=
  flagged2 (fMul fp32) (sideLen (fMin a.2.2.1 b.2.2.1) (fMax a.1 b.1)) (sideLen (fMin a.2.2.2 b.2.2.2) (fMax a.2.1 b.2.1))

/-- Box `b` suppresses box `a`: inter > T × uni, the product exact (R209); with the flags of the arithmetic (R210). -/
def suppress (t : FV) (a b : Box) : Bool × Nat :=
  let inter := boxInter a b
  let uni := flagged2 (fSub fp32) (flagged2 (fAdd fp32) (boxArea a) (boxArea b)) inter
  let lim := fMulX t uni.1
  (fLt lim inter.1, uni.2 ||| flagIf (lim.isNan && !t.isNan && !uni.1.isNan) vxInvalid)

/-- A kept box suppresses box `p`: the first that does, in order, ends the search (R209). -/
def nmsHit (t : FV) (cw : Bool) (p : Box × Int) : List (Nat × Box × Int) → Bool × Nat
  | [] => (false, 0)
  | q :: qs =>
    if !cw || q.2.2 == p.2 then
      let s := suppress t p.1 q.2.1
      if s.1 then s
      else
        let r := nmsHit t cw p qs
        (r.1, s.2 ||| r.2)
    else nmsHit t cw p qs

/-- The kept boxes, in order, from the kept list so far, and the flags raised (R209, R210). -/
def nmsGo (t : FV) (cw : Bool) : List (Nat × Box × Int) → List (Nat × Box × Int) × Nat → List (Nat × Box × Int) × Nat
  | [], kept => kept
  | p :: ps, kept =>
    let h := nmsHit t cw p.2 kept.1
    nmsGo t cw ps (if h.1 then kept.1 else kept.1 ++ [p], kept.2 ||| h.2)

/-- NMS (R209). -/
def VecOp.nmsOut (v : VecOp) (c : CoreMem) (vl : Nat) : Out :=
  let coord := fun i k => fDec fp32 (memNat c.csp (64 * v.a + 16 * i + 4 * k) 4)
  let box : Nat → Box := fun i => (coord i 0, coord i 1, coord i 2, coord i 3)
  let en := (upTo vl).filter fun i => v.on c 0 i
  let bad := fun i => (upTo 4).any fun k => (coord i k).isNan
  let t := v.rawElem c 3 0 0 0
  let kept := nmsGo t v.opt ((en.filter fun i => !bad i).map fun i =>
    (i, box i, sext 32 (memNat c.csp (64 * v.b + 4 * i) 4))) ([], 0)
  let ids := kept.1.map (·.1)
  ((upTo (8 * ceilDiv vl 8)).map (fun j =>
      { bit := 8 * 64 * v.dst + j, n := 1, v := b2n (ids.contains j), on := en.contains j : EWrite }) ++
    [wr (8 * v.dst2) 32 ids.length] ++
    (List.zip (upTo ids.length) ids).map (fun p => wr (8 * v.dst3 + 32 * p.1) 32 p.2),
   kept.2 ||| flagIf (en.any bad || t.isNan) vxNanIn)

/-- The beats of an instruction, each a function of the memory it finds (R189). A block of a CVT to an MX format belongs to
the ck that handles its last element. -/
def VecOp.beats (v : VecOp) (vl vr vlp vrp : Nat) : List (CoreMem → Out) :=
  if v.isNms then (if vl = 0 ∨ vr = 0 then [] else [fun c => v.nmsOut c vl])
  else if v.isTopk then (upTo vr).map fun i c => v.topkOut c vl vlp i
  else if v.red then (upTo vr).map fun i c => v.redOut c vl vlp i
  else if v.isSoftmax then (if vl = 0 then [] else (upTo vr).map fun i c => v.softmaxOut c vl vlp i)
  else if v.isNorm then (if vl = 0 then [] else (upTo vr).map fun i c => v.normOut c vl vlp i)
  else if vl = 0 ∨ vr = 0 then []
  else if v.isCvt && fmtIsMx v.fmtD then
    let blocks := (upTo vr).flatMap fun i => (upTo (ceilDiv vl 32)).map fun k => (i, k)
    (upTo (ceilDiv (vrp * vlp) v.rate)).map fun b c =>
      joinOut ((blocks.filter fun q => (q.1 * vlp + min (32 * q.2 + 31) (vlp - 1)) / v.rate == b).map fun q =>
        v.mxBlockOut c vl vlp q.1 q.2)
  else
    let n := max 1 (v.rate / v.cost)
    (upTo (ceilDiv (vrp * vlp) n)).map (fun b c =>
      joinOut (((upTo n).map (b * n + ·)).map fun x =>
        if x % vlp < vl ∧ x / vlp < vr then v.elemOut c vlp (x / vlp) (x % vlp) else ([], 0))) ++
      (if v.bitmap then [fun _ => (v.bitmapTail vl vlp, 0)] else [])

/-- Runs beats in ascending order: each reads its sources before its results are written (R189). -/
def runBeats (lrVal : Nat) : List (CoreMem → Out) → CoreMem → CoreMem
  | [], c => c
  | b :: bs, c =>
    let o := b c
    runBeats lrVal bs ((applyWrites lrVal o.1 c).raise o.2)

/-- The whole effect of a vector instruction on the data path. -/
def VecOp.run (v : VecOp) (lrVal vl vr vlp vrp : Nat) (c : CoreMem) : CoreMem :=
  runBeats lrVal (v.beats vl vr vlp vrp) c

/-- The byte spans of a view, row by row. -/
def viewSpans (base pitch r c eb : Nat) : List (Nat × Nat) :=
  if c = 0 then [] else (upTo r).map fun i => (base + i * pitch, base + i * pitch + ceilDiv (c * eb) 8)

/-- The spans of an MX scale region (R262). -/
def mxScaleSpans (base vlp vrp : Nat) : List (Nat × Nat) :=
  viewSpans base (roundUp (ceilDiv vlp 32) 64) vrp (ceilDiv vlp 32) 8

/-- The spans of operand `i` in the scratchpad. -/
def VecOp.srcSpans (v : VecOp) (i vlp vrp : Nat) : List (Nat × Nat) :=
  let base := if i = 0 then 64 * v.a else if i = 1 then 64 * v.b else if i = 2 then v.addrC else v.addrE
  let eb := if i = 3 then 32 else fmtBits (v.fmt i)
  if v.isDef i || v.mode i == 3 || v.isAcm i then []
  else if v.isNms && i == 0 then viewSpans base 0 1 vlp 128
  else if v.isNms && i == 1 then viewSpans base 0 1 vlp 32
  else match v.mode i with
    | 0 => viewSpans base (v.pitch i) vrp vlp eb
    | 1 => viewSpans base 0 1 vrp eb
    | _ => viewSpans base 0 1 vlp eb

/-- Scratchpad spans the instruction reads, at planned lengths (R253). -/
def VecOp.reads (v : VecOp) (vlp vrp : Nat) : List (Nat × Nat) :=
  v.srcSpans 0 vlp vrp ++ (if v.usesB then v.srcSpans 1 vlp vrp else []) ++
  (if v.usesC then v.srcSpans 2 vlp vrp else []) ++ (if v.usesE then v.srcSpans 3 vlp vrp else []) ++
  (if fmtIsMx (v.fmt 0) then mxScaleSpans v.addrC vlp vrp else []) ++
  (if v.rowMask == 0xFFFFFFFF then [] else viewSpans v.rowMask 0 1 vrp 1) ++
  (if v.colMask == 0xFFFFFFFF then [] else viewSpans v.colMask 0 1 vlp 1)

/-- Spans of the main destination, at planned lengths. -/
def VecOp.mainSpans (v : VecOp) (vlp vrp : Nat) : List (Nat × Nat) :=
  let d := 64 * v.dst
  let eb := fmtBits v.fmtD
  if v.bitmap || v.isNms then viewSpans d 0 1 vlp 1
  else if v.isTopk then viewSpans d v.pitchD vrp (v.k + 1) eb
  else if v.red then viewSpans d v.pitchD vrp 1 (if 4 ≤ v.fn then 32 else eb)
  else viewSpans d v.pitchD vrp vlp eb

/-- Spans of DST2 and DST3, at planned lengths (R263). -/
def VecOp.sideSpans (v : VecOp) (vlp vrp : Nat) : List (Nat × Nat) :=
  if v.isNms then [(v.dst2, v.dst2 + 4)] ++ viewSpans v.dst3 0 1 vlp 32
  else if v.isTopk then viewSpans v.dst2 v.pitchD vrp (v.k + 1) 32
  else if v.isCvt && fmtIsMx v.fmtD then mxScaleSpans v.dst2 vlp vrp
  else []

/-- Scratchpad spans the instruction writes, at planned lengths (R253). -/
def VecOp.writes (v : VecOp) (vlp vrp : Nat) : List (Nat × Nat) := v.mainSpans vlp vrp ++ v.sideSpans vlp vrp

/-- The format of the main destination's elements; none for a bitmap or for indices (R204, R263). -/
def VecOp.outFmt (v : VecOp) : Option Nat :=
  if v.bitmap || v.isNms then none
  else if v.red && v.fn == 4 then some 14
  else if v.red && (v.fn == 5 || v.fn == 6) then none
  else some v.fmtD

/-- The main destination coincides exactly with source `i` at byte address `base` (R189). -/
def VecOp.coincides (v : VecOp) (i base : Nat) : Bool :=
  v.mode i == 0 && !v.isAcm i && base == 64 * v.dst && v.pitch i == v.pitchD && some (v.fmt i) == v.outFmt

/-- A destination shares bytes with a source and does not coincide exactly with a VEC source (R189, R213). The scale region
of an MX operand belongs to it. -/
def VecOp.overlapping (v : VecOp) (vlp vrp : Nat) : Bool :=
  let src := fun (i base : Nat) (used : Bool) => if used then [(v.coincides i base, v.srcSpans i vlp vrp)] else []
  let srcs := src 0 (64 * v.a) true ++ src 1 (64 * v.b) v.usesB ++ src 2 v.addrC v.usesC ++
    (if v.usesE then [(false, v.srcSpans 3 vlp vrp)] else [])
  let scales := if fmtIsMx (v.fmt 0) then mxScaleSpans v.addrC vlp vrp else []
  let hits := fun (ds ss : List (Nat × Nat)) => ds.any fun d => ss.any fun s => overlaps d.1 d.2 s.1 s.2
  let main := v.mainSpans vlp vrp
  let side := v.sideSpans vlp vrp
  srcs.any (fun s => (!s.1 && hits main s.2) || hits side s.2) || hits main scales ||
  (!(v.coincides 0 (64 * v.a) && v.isCvt && v.dst2 == v.addrC) && hits side scales)

end Sys2Proof.Machine
end

