-- ==== Sys2Proof/Machine/Array.lean ====
section
/-! DEFINITION. The matrix array and the window sequencer: cell dot products (R171 to R178), MXM, CNV, DWC, PLX and
SHL (R142 to R155, R216 to R231, R254 to R260), their defined encodings, and what they write. -/

namespace Sys2Proof.Machine

/-- The exact sum of the products of a float cell inside its window (R172): integer, lowest weight, sticky. -/
def windowSum (ps : List (Bool × Nat × Int)) : Int × Int × Bool :=
  let nz := ps.filter fun p => p.2.1 != 0
  let l := nz.foldl (fun (a : Int) p => max a (log2Floor p.2.1 p.2.2)) (-100000)
  let lo := l - 112
  nz.foldl (fun (a : Int × Int × Bool) p =>
    if lo ≤ p.2.2 then (a.1 + sInt p.1 (p.2.1 <<< (p.2.2 - lo).toNat), a.2)
    else
      let d := (lo - p.2.2).toNat
      (a.1 + sInt p.1 (p.2.1 >>> d), a.2.1, a.2.2 || p.2.1 % 2 ^ d != 0)) (0, lo, false)

/-- The float dot product of the enabled pairs (R172 to R174) with its flags (R182). -/
def dotFloat (ps : List (FV × FV)) : FV × Nat :=
  let nanIn := ps.any fun p => p.1.isNan || p.2.isNan
  let good := ps.filter fun p => !(p.1.isNan || p.2.isNan)
  let zi := good.any fun p => (p.1.isInf && p.2.isZero) || (p.1.isZero && p.2.isInf)
  let infs := good.filter fun p => p.1.isInf || p.2.isInf
  let pos := infs.any fun p => p.1.neg == p.2.neg
  let neg := infs.any fun p => p.1.neg != p.2.neg
  let made := zi || (pos && neg)
  let fl := flagIf nanIn flNanIn ||| flagIf made flNanMade
  if nanIn || made then (.nan, fl)
  else if pos || neg then (.inf neg, fl)
  else
    let prods := ps.map fun p =>
      match fMulX p.1 p.2 with
      | .fin s m e => (s, m, e)
      | _ => (false, 0, 0)
    let w := windowSum prods
    if w.1 = 0 then (fZero (!prods.isEmpty && prods.all fun p => p.2.1 == 0 && p.1), fl)
    else
      let r := fRnd fp32 w.2.2 (ofSInt w.1 w.2.1 false)
      (r, fl ||| flagIf r.isInf flFpOver)

/-- The float ACM add (R177, R182). -/
def accFloat (old : Nat) (d : FV) : FV × Nat :=
  let a := fDec fp32 old
  let r := fAdd fp32 a d
  (r, flagIf a.isNan flNanIn ||| flagIf (r.isNan && !a.isNan && !d.isNan) flNanMade |||
    flagIf (r.isInf && a.isFin && d.isFin) flFpOver)

/-- Elements of a chunk: `n` elements of `eb` bits (R168). -/
def chunkElems (bs : List Byte) (eb n : Nat) : List Nat :=
  let v := ofLe bs
  (upTo n).map fun i => bits v (i * eb) eb

/-- The value of a chunk element with its block scale (R169). -/
def chunkVal (fmt : Nat) (scale : List Byte) (e n : Nat) : FV :=
  let x := elemVal fmt n
  if fmtIsMx fmt then mxScale (at_ scale (e / 32) 1) x else x

/-- One cell result written or accumulated into the ACM (R154, R171, R177, R178). -/
def cellWrite (sFmt wFmt line col : Nat) (acc : Bool) (pairs : List (FV × FV)) (c : CoreMem) : CoreMem :=
  if fmtIsInt sFmt && fmtIsInt wFmt then
    let iv := fun (x : FV) => match x with | .fin s m _ => sInt s m | _ => 0
    let d : Int := pairs.foldl (fun (t : Int) p => t + iv p.1 * iv p.2) 0
    if acc then
      let n := sext 32 (acmWord c line col) + d
      let r := clampI (-2147483648) 2147483647 n
      (acmSet c line col (wrapInt 32 r)).raise (flagIf (decide (r ≠ n)) flIntSat)
    else acmSet c line col (wrapInt 32 d)
  else
    let d := dotFloat pairs
    if acc then
      let r := accFloat (acmWord c line col) d.1
      (acmSet c line col (fEnc fp32 r.1)).raise (d.2 ||| r.2)
    else (acmSet c line col (fEnc fp32 d.1)).raise d.2

/-- The geometry of an array instruction: passes, steps and where its operands lie. -/
structure ArrPlan where
  sFmt : Nat
  wFmt : Nat
  elems : Nat
  /-- Stationary elements a chunk reads: all of them, or a kernel row's with PACKROW (R221, R222). -/
  take : Nat
  nk : Nat
  tp : Nat
  preload : Bool
  wAddr : Nat
  wScale : Nat
  /-- Chunk k, column c: scratchpad address of the bank bytes and of the scale slot; none where the column is masked. -/
  cols : List (List (Option (Nat × Nat)))
  /-- Chunk k: elements that take part outside diagonal mode. -/
  on : List Nat
  /-- Chunk k: first line and whether it accumulates. -/
  lines : List (Nat × Bool)
  /-- Row-steps unmasked: output channels below this. -/
  n : Nat
  /-- Diagonal mode: group size and channel multiplier, 0 otherwise. -/
  gs : Nat
  mult : Nat
  deriving DecidableEq, Repr

def ArrPlan.cbS (p : ArrPlan) : Nat := p.elems * fmtBits p.sFmt / 8
def ArrPlan.cbW (p : ArrPlan) : Nat := p.elems * fmtBits p.wFmt / 8

/-- Stationary bytes a chunk reads. -/
def ArrPlan.readS (p : ArrPlan) : Nat := ceilDiv (p.take * fmtBits p.sFmt) 8

/-- The lanes enabled for output channel `j` in a chunk whose first `lim` elements take part (R146, R223, R227). -/
def ArrPlan.lanes (p : ArrPlan) (lim j : Nat) : List Nat :=
  if p.gs = 0 then upTo (min p.elems lim)
  else ((upTo p.gs).map (j / p.mult * p.gs + ·)).filter (· < min p.elems lim)

/-- Row-step (t, r) of a chunk is unmasked (R146, R260). -/
def ArrPlan.rowOn (p : ArrPlan) (lim t r : Nat) : Bool :=
  r + 32 * t < p.n && (p.gs == 0 || (r + 32 * t) / p.mult * p.gs < lim)

/-- The shadow banks loaded with a chunk (R147). -/
def loadShadow (p : ArrPlan) (k : Nat) (c : CoreMem) : CoreMem :=
  { c with shadow := (List.zip c.shadow ((p.cols[k]?).getD [])).map fun q =>
      match q.2 with
      | some a =>
        { data := memBytes c.csp a.1 p.readS ++ q.1.data.drop p.readS,
          scale := if fmtIsMx p.sFmt then memBytes c.csp a.2 4 else q.1.scale }
      | none => q.1 }

/-- The tack (R149). -/
def tack (c : CoreMem) : CoreMem := { c with active := c.shadow, shadow := c.active }

/-- One row-step: the dot products of one logical row for one weight word (R144, R157). -/
def rowStep (p : ArrPlan) (k t r : Nat) (c : CoreMem) : CoreMem :=
  let lim := (p.on[k]?).getD 0
  let ln := (p.lines[k]?).getD (0, false)
  let idx := (k * p.tp + t) * 32 + r
  let w := memBytes c.csp (p.wAddr + idx * p.cbW) p.cbW
  let ws := if fmtIsMx p.wFmt then memBytes c.csp (p.wScale + idx * 4) 4 else []
  let lanes := p.lanes lim (r + 32 * t)
  let wv := chunkElems w (fmtBits p.wFmt) p.elems
  let cols := (p.cols[k]?).getD []
  let c := { c with steps := modAt (· + 1) r c.steps }
  (upTo 64).foldl (fun c col =>
    match (cols[col]?).getD none with
    | none => c
    | some _ =>
      let b := (c.active[col]?).getD Bank.zero
      let sv := chunkElems b.data (fmtBits p.sFmt) p.elems
      let pairs := lanes.map fun e =>
        (chunkVal p.sFmt b.scale e ((sv[e]?).getD 0), chunkVal p.wFmt ws e ((wv[e]?).getD 0))
      cellWrite p.sFmt p.wFmt (ln.1 + 32 * t + r) col ln.2 pairs c) c

/-- One pass: tack, then every unmasked row-step (R145, R149). -/
def runPass (p : ArrPlan) (k : Nat) (c : CoreMem) : CoreMem :=
  let c := tack (if k == 0 && p.preload then c else loadShadow p k c)
  let lim := (p.on[k]?).getD 0
  (upTo (32 * p.tp)).foldl (fun c x => if p.rowOn lim (x / 32) (x % 32) then rowStep p k (x / 32) (x % 32) c else c) c

/-- The whole effect of an array instruction on the data path; none of it when it has no pass (R224). -/
def ArrPlan.run (p : ArrPlan) (c : CoreMem) : CoreMem :=
  if p.tp = 0 then c else (upTo p.nk).foldl (fun c k => runPass p k c) c

/-- The 16-bit class (R143). -/
def ArrPlan.wide (p : ArrPlan) : Bool := fmtIs16 p.sFmt || fmtIs16 p.wFmt
/-- ck for a weight step (R143). -/
def ArrPlan.w (p : ArrPlan) : Nat := if p.wide then 2 else 1
/-- Pass spacing U (R224). -/
def ArrPlan.u (p : ArrPlan) : Nat := max (p.tp * p.w) (if p.wide then 13 else 9)
/-- ck of a full shadow load (R147). -/
def loadCk (wide : Bool) : Nat := if wide then 8 else 4
/-- The instruction has no pass (R224, R273). -/
def ArrPlan.empty (p : ArrPlan) : Bool := p.tp == 0 || p.nk == 0
/-- Occupancy (R224). -/
def ArrPlan.occ (p : ArrPlan) : Nat := if p.empty then 0 else p.nk * p.u
/-- First front ck from the issue ck (R224, R273). -/
def ArrPlan.front (p : ArrPlan) (issue : Nat) : Nat := if p.preload then issue else issue + loadCk p.wide + 1
/-- The ck in which the last word enters row 0 (R224). -/
def ArrPlan.last (p : ArrPlan) (issue : Nat) : Nat := p.front issue + (p.nk - 1) * p.u + p.tp * p.w - 1
/-- The front ck of the last pass. -/
def ArrPlan.lastFront (p : ArrPlan) (issue : Nat) : Nat := p.front issue + (p.nk - 1) * p.u

/-- The ck in which word step `t` of pass `k` leaves the feeder, for an instruction whose first front is `front` (R145,
R224). -/
def ArrPlan.wordCk (p : ArrPlan) (front k t : Nat) : Nat := front + k * p.u + (t + 1) * p.w - 1

/-- The pass and step of the word that leaves the feeder in a ck, where one does (R145). -/
def ArrPlan.wordAt (p : ArrPlan) (front ck : Nat) : Option (Nat × Nat) :=
  let off := ck - front
  let k := off / p.u
  let t := off % p.u / p.w
  if front ≤ ck && k < p.nk && t < p.tp && p.wordCk front k t == ck then some (k, t) else none

/-- Cell (row, column) has an unmasked result for a word: it makes a residue check (R146, R156). -/
def ArrPlan.checks (p : ArrPlan) (k t row column : Nat) : Bool :=
  p.rowOn ((p.on[k]?).getD 0) t row && ((((p.cols[k]?).getD [])[column]?).getD none).isSome

/-- The bus ck of the shadow load of pass `k`, for an instruction that issues at `issue`; pass 0 has none with PRELOAD
(R147, R148, R224). -/
def ArrPlan.loadAt (p : ArrPlan) (issue k : Nat) : Option Nat :=
  if k = 0 then (if p.preload then none else some issue) else some (p.front issue + (k - 1) * p.u + 4)

/-- The format pair is legal for the array (R166, R170). -/
def fmtPairOk (s w : Nat) : Bool := fmtArray s && fmtArray w && fmtIsInt s == fmtIsInt w

/-- Run-time and planned values of a length. -/
abbrev Len := Nat × Nat

/-! ### MXM -/

/-- The chunk elements of a format pair outside DWC (R255). -/
def chunkE (s w : Nat) : Nat := if fmtIs4 s && fmtIs4 w then 128 else 64

/-- The plan of an MXM from its word, its lengths and its scale prefix (R254 to R256). -/
def mxmPlan (w : Nat) (pre : Option (Nat × Nat)) (m n k : Len) : ArrPlan :=
  let s := bits w 24 4
  let f := bits w 28 4
  let e := chunkE s f
  let cb := e * fmtBits s / 8
  let nk := ceilDiv k.2 e
  let sp := roundUp (nk * cb) 64
  let zero := m.1 = 0 ∨ n.1 = 0 ∨ k.1 = 0
  let sAddr := 64 * bits w 32 20
  let sSc := 64 * (pre.getD (0, 0)).1
  { sFmt := s, wFmt := f, elems := e, take := e, nk := nk, tp := ceilDiv n.2 32, preload := bitAt w 5,
    wAddr := 64 * bits w 52 20, wScale := 64 * (pre.getD (0, 0)).2,
    cols := (upTo nk).map fun c => (upTo 64).map fun p =>
      if p < m.1 then some (sAddr + p * sp + c * cb, sSc + (64 * c + p) * 4) else none,
    on := (upTo nk).map fun c => k.1 - c * e,
    lines := (upTo nk).map fun c => (32 * bits w 72 8, c != 0 || bitAt w 4),
    n := if zero then 0 else n.1, gs := 0, mult := 1 }

/-- Scratchpad bytes of the weights and scales of a plan (R255, R256). -/
def ArrPlan.weightEnd (p : ArrPlan) : Nat := if p.empty then 0 else p.wAddr + p.nk * p.tp * 32 * p.cbW
def ArrPlan.wScaleEnd (p : ArrPlan) : Nat :=
  if p.empty || !fmtIsMx p.wFmt then 0 else p.wScale + p.nk * p.tp * 32 * 4

/-- One past the last stationary byte, and scale byte, over the columns of a plan. -/
def ArrPlan.statEnd (p : ArrPlan) : Nat × Nat :=
  p.cols.foldl (fun a row => row.foldl (fun a o =>
    match o with
    | some x => (max a.1 (x.1 + p.readS), max a.2 (if fmtIsMx p.sFmt then x.2 + 4 else 0))
    | none => a) a) (0, 0)

/-- One past the last line of a plan. -/
def ArrPlan.lineEnd (p : ArrPlan) : Nat :=
  if p.empty then 0 else p.lines.foldl (fun a l => max a (l.1 + 32 * p.tp)) 0

/-- A defined MXM (R170, R248, R254, R256, R274): `q` is the plan at planned lengths. -/
def mxmDefined (w : Nat) (q : ArrPlan) (m n k : Nat) (pre : Bool) (cspBytes acmBytes : Nat) : Bool :=
  bits w 6 2 == 0 && bits w 121 7 == 0 && fmtPairOk (bits w 24 4) (bits w 28 4) &&
  m ≤ 64 && n ≤ 8192 && k ≤ 65536 && (pre == (fmtIsMx q.sFmt || fmtIsMx q.wFmt)) &&
  q.statEnd.1 ≤ cspBytes && q.statEnd.2 ≤ cspBytes && q.weightEnd ≤ cspBytes && q.wScaleEnd ≤ cspBytes &&
  q.lineEnd ≤ acmBytes / 256

/-! ### Windows -/

/-- A window descriptor with its lengths resolved, run-time and planned (R216, R259). -/
structure Win where
  kh : Nat
  kw : Nat
  sh : Nat
  sw : Nat
  dh : Nat
  dw : Nat
  pt : Nat
  pb : Nat
  pl : Nat
  pr : Nat
  ih : Len
  iw : Len
  npos : Len
  flags : Nat
  chans : Nat
  pos0 : Nat
  inBase : Nat
  rowPitch : Nat
  pixPitch : Nat
  scRow : Nat
  scPix : Nat
  dst : Nat
  dstPitch : Nat
  dstFmt : Nat
  resvOk : Bool
  deriving DecidableEq, Repr

/-- A 2-byte length field: an immediate, or a shape variable with its run-time and planned value (R259). -/
def winLen (raw : Nat) (shape plan : List Nat) : Option Len :=
  if bitAt raw 15 then
    let v := bits raw 0 4
    if bits raw 4 11 = 0 then
      match shape[v]?, plan[v]? with
      | some a, some b => some (a, b)
      | _, _ => none
    else none
  else if bits raw 13 2 = 0 then some (raw, raw) else none

/-- Reads a window descriptor; none where a shape variable or reserved bit is wrong (R248, R259). `shape` and `plan` hold
the SHAPE_COUNT run-time and planned values. -/
def winOf (d : List Byte) (shape plan : List Nat) : Option Win :=
  match winLen (at_ d 0x0A 2) shape plan, winLen (at_ d 0x0C 2) shape plan, winLen (at_ d 0x12 2) shape plan with
  | some ih, some iw, some np =>
    some { kh := at_ d 0 1 + 1, kw := at_ d 1 1 + 1, sh := at_ d 2 1 + 1, sw := at_ d 3 1 + 1,
           dh := at_ d 4 1 + 1, dw := at_ d 5 1 + 1, pt := at_ d 6 1, pb := at_ d 7 1, pl := at_ d 8 1,
           pr := at_ d 9 1, ih := ih, iw := iw, npos := np, flags := at_ d 0x0E 2, chans := at_ d 0x10 2 + 1,
           pos0 := at_ d 0x14 4, inBase := at_ d 0x18 4, rowPitch := at_ d 0x1C 4, pixPitch := at_ d 0x20 4,
           scRow := at_ d 0x24 4, scPix := at_ d 0x28 4, dst := at_ d 0x2C 4, dstPitch := at_ d 0x30 4,
           dstFmt := at_ d 0x34 1, resvOk := (d.drop 0x35).take 11 == zeros 11 && at_ d 0x14 4 < 2 ^ 24 }
  | _, _, _ => none

def Win.packrow (v : Win) : Bool := bitAt v.flags 0
def Win.gs (v : Win) : Nat := 2 ^ bits v.flags 1 3
def Win.mult (v : Win) : Nat := bits v.flags 4 6 + 1
def Win.mode (v : Win) : Nat := bits v.flags 10 2

/-- Output size from an input height and width (R217). -/
def Win.outSize (v : Win) (ih iw : Nat) : Int × Int :=
  (((ih + v.pt + v.pb : Nat) - (v.dh * (v.kh - 1) : Nat) - 1 : Int) / (v.sh : Int) + 1,
   ((iw + v.pl + v.pr : Nat) - (v.dw * (v.kw - 1) : Nat) - 1 : Int) / (v.sw : Int) + 1)

/-- The output size is positive. -/
def sizePos (s : Int × Int) : Bool := decide (0 < s.1 ∧ 0 < s.2)

/-- The output row and column of instruction position `p`, where it exists (R217, R219). -/
def Win.pos (v : Win) (size : Int × Int) (npos p : Nat) : Option (Nat × Nat) :=
  let q := v.pos0 + p
  if sizePos size ∧ p < npos ∧ q < size.1.toNat * size.2.toNat then
    some (q / size.2.toNat, q % size.2.toNat)
  else none

/-- The plan of a CNV or DWC (R221 to R227, R260). `planned` takes the planned lengths in place of the run-time ones. -/
def winPlan (w : Nat) (dwc : Bool) (v : Win) (pre : Option (Nat × Nat)) (n : Len) (planned : Bool) : ArrPlan :=
  let s := bits w 24 4
  let f := bits w 28 4
  let e := if dwc then 64 else chunkE s f
  let cb := e * fmtBits s / 8
  let g := ceilDiv v.chans e
  let packrow := !dwc && v.packrow
  let nk := if packrow then v.kh else v.kh * v.kw * g
  let size := if planned then v.outSize v.ih.2 v.iw.2 else v.outSize v.ih.1 v.iw.1
  let npos := if planned then v.npos.2 else v.npos.1
  let nOut := if dwc then 64 / v.gs * v.mult else n.2
  let tp := ceilDiv nOut 32
  let base := 32 * bits w 72 8
  let sSc := 64 * (pre.getD (0, 0)).1
  let tapOf := fun k => if packrow then k * v.kw else k / g
  let grp := fun k => if packrow then 0 else k % g
  let empty := !sizePos size || npos == 0 || (!dwc && n.1 == 0)
  { sFmt := s, wFmt := f, elems := e, take := if packrow then min e (v.kw * v.chans) else e, nk := nk, tp := tp,
    preload := false,
    wAddr := 64 * bits w 52 20, wScale := 64 * (pre.getD (0, 0)).2,
    cols := (upTo nk).map fun k => (upTo 64).map fun p =>
      (v.pos size npos p).map fun o =>
        let iy := o.1 * v.sh + tapOf k / v.kw * v.dh
        let ix := o.2 * v.sw + tapOf k % v.kw * v.dw
        (v.inBase + iy * v.rowPitch + ix * v.pixPitch + grp k * cb,
         sSc + iy * v.scRow + ix * v.scPix + 4 * grp k),
    on := (upTo nk).map fun k => if packrow then v.kw * v.chans else v.chans - grp k * e,
    lines := (upTo nk).map fun k =>
      (base + (if dwc then 32 * tp * grp k else 0), (if dwc then k / g != 0 else k != 0) || bitAt w 4),
    n := if empty then 0 else if dwc then nOut else n.1,
    gs := if dwc then v.gs else 0, mult := v.mult }

/-- A defined CNV or DWC (R170, R216, R221, R222, R224, R248, R258, R259, R274): `q` is the plan at planned lengths. -/
def winDefined (w : Nat) (dwc : Bool) (v : Win) (q : ArrPlan) (n : Nat) (pre : Bool) (cspBytes acmBytes : Nat) : Bool :=
  let mx := fmtIsMx q.sFmt || fmtIsMx q.wFmt
  bits w 5 3 == 0 && bits w 95 33 == 0 && 64 * bits w 32 20 + 64 ≤ cspBytes && (!dwc || bits w 80 15 == 0) && v.resvOk &&
  fmtPairOk (bits w 24 4) (bits w 28 4) && n ≤ 8192 && (pre == mx) &&
  v.npos.2 ≤ 64 && 1 ≤ v.ih.2 && v.ih.2 ≤ 4096 && 1 ≤ v.iw.2 && v.iw.2 ≤ 4096 &&
  bits v.flags 10 6 == 0 && (dwc || bits v.flags 1 9 == 0) && (!dwc || (bits v.flags 0 1 == 0 && bits v.flags 1 3 ≤ 5)) &&
  v.dst == 0 && v.dstPitch == 0 && v.dstFmt == 0 && (mx || (v.scRow == 0 && v.scPix == 0)) &&
  addrOk v.inBase && v.rowPitch % 64 == 0 &&
  (if !dwc && v.packrow then
     v.dw == 1 && !mx && 8 * v.pixPitch == v.chans * fmtBits q.sFmt && v.kw * v.chans ≤ q.elems
   else v.pixPitch % 64 == 0 && ceilDiv v.chans q.elems * q.cbS ≤ v.pixPitch) &&
  q.nk ≤ 65536 && q.statEnd.1 ≤ cspBytes && q.statEnd.2 ≤ cspBytes && q.weightEnd ≤ cspBytes &&
  q.wScaleEnd ≤ cspBytes && q.lineEnd ≤ acmBytes / 256

/-! ### Pooling -/

/-- One past the last byte a PLX reads at planned lengths. -/
def plxReadEnd (v : Win) (fmt : Nat) : Nat :=
  let size := v.outSize v.ih.2 v.iw.2
  (upTo v.npos.2).foldl (fun a p =>
    match v.pos size v.npos.2 p with
    | some o => max a (v.inBase + (o.1 * v.sh + (v.kh - 1) * v.dh) * v.rowPitch +
        (o.2 * v.sw + (v.kw - 1) * v.dw) * v.pixPitch + ceilDiv (v.chans * fmtBits fmt) 8)
    | none => a) 0

/-- The format a PLX writes: MAX keeps the input format (R229). -/
def plxFmt (v : Win) (fmt : Nat) : Nat := if v.mode = 0 then fmt else v.dstFmt

/-- One past the last byte a PLX writes. -/
def plxWriteEnd (v : Win) (fmt : Nat) : Nat := viewEnd v.dst v.dstPitch v.npos.2 v.chans (fmtBits (plxFmt v fmt))

/-- A defined PLX (R216, R228, R248, R258, R274). -/
def plxDefined (w : Nat) (v : Win) (cspBytes : Nat) : Bool :=
  let f := bits w 24 4
  bits w 4 4 == 0 && bits w 28 4 == 0 && bits w 52 76 == 0 && 64 * bits w 32 20 + 64 ≤ cspBytes && v.resvOk &&
  !fmtIsMx f && v.dstFmt < 16 &&
  !fmtIsMx v.dstFmt && v.npos.2 ≤ 4096 && 1 ≤ v.ih.2 && v.ih.2 ≤ 4096 && 1 ≤ v.iw.2 && v.iw.2 ≤ 4096 &&
  bits v.flags 0 10 == 0 && bits v.flags 12 4 == 0 && v.mode ≤ 2 && v.scRow == 0 && v.scPix == 0 &&
  addrOk v.inBase && addrOk v.dst && v.rowPitch % 64 == 0 && v.dstPitch % 64 == 0 &&
  8 * v.pixPitch % fmtBits f == 0 && plxReadEnd v f ≤ cspBytes && plxWriteEnd v f ≤ cspBytes

/-- Taps of a PLX in a ck: E of R231. -/
def plxRate (v : Win) (fmt : Nat) : Nat := if v.mode = 0 ∧ fmtBits fmt ≤ 16 then 2048 else 1024

/-- Occupancy of a PLX (R231). -/
def plxOcc (v : Win) (fmt : Nat) : Nat := max 1 (ceilDiv (v.npos.2 * v.chans * v.kh * v.kw) (plxRate v fmt)) + 20

/-- The taps of output (oy, ox), ky outer, with whether they lie inside the unpadded input (R220, R228). -/
def Win.taps (v : Win) (oy ox : Nat) : List (Nat × Nat × Bool) :=
  (upTo (v.kh * v.kw)).map fun k =>
    let iy := oy * v.sh + k / v.kw * v.dh
    let ix := ox * v.sw + k % v.kw * v.dw
    (iy, ix, v.pt ≤ iy && iy < v.pt + v.ih.1 && v.pl ≤ ix && ix < v.pl + v.iw.1)

/-- One output element of a PLX: encoding, arithmetic flags, window flags (R229, R230). -/
def plxElem (v : Win) (fmt : Nat) (c : CoreMem) (oy ox j : Nat) : Nat × Nat × Nat :=
  let eb := fmtBits fmt
  let rd := fun (t : Nat × Nat × Bool) =>
    memBits c.csp (8 * (v.inBase + t.1 * v.rowPitch + t.2.1 * v.pixPitch) + j * eb) eb
  let taps := v.taps oy ox
  if v.mode = 0 then
    let vs := taps.map rd
    let nan := !fmtIsInt fmt && vs.any fun n => (elemVal fmt n).isNan
    if nan then (canonNan (ffmtOf fmt), vxNanIn, 0)
    else
      match vs with
      | [] => (0, 0, 0)
      | x :: xs => (xs.foldl (fun a b => if fLtZ (elemVal fmt a) (elemVal fmt b) then b else a) x, 0, 0)
  else
    let counted := if v.mode = 1 then taps else taps.filter fun t => t.2.2
    let n := if v.mode = 1 then v.kh * v.kw else counted.length
    match counted.map rd with
    | [] => (0, 0, 2)
    | x :: xs =>
      if fmtIsInt fmt then
        let s : Int := (x :: xs).foldl (fun (t : Int) e => t + intVal fmt e) 0
        let q := rneDiv s n
        let r := cvtTo v.dstFmt false (fOfInt q)
        (r.1, r.2, 0)
      else
        let add := fun (a : FV × Nat) e =>
          let y := elemVal fmt e
          let r := fAdd fp32 a.1 y
          (r, a.2 ||| flagIf y.isNan vxNanIn ||| opFlags [a.1, y] r)
        let x0 := elemVal fmt x
        let s := xs.foldl add (x0, flagIf x0.isNan vxNanIn)
        let q := fDiv fp32 s.1 (fOfInt n)
        let r := if v.dstFmt = 14 then (fEnc fp32 q, 0) else cvtTo v.dstFmt false q
        (r.1, s.2 ||| r.2, 0)

/-- The whole effect of a PLX on the data path (R218, R228 to R230). -/
def plxRun (v : Win) (fmt lrVal : Nat) (c : CoreMem) : CoreMem :=
  let size := v.outSize v.ih.1 v.iw.1
  if !sizePos size then { c with win := c.win ||| 1 }
  else
    let f := plxFmt v fmt
    (upTo v.npos.1).foldl (fun c p =>
      match v.pos size v.npos.1 p with
      | none => c
      | some o =>
        let es := (upTo v.chans).map fun j => (j, plxElem v fmt c o.1 o.2 j)
        let ws := es.map fun e => wr (8 * (v.dst + p * v.dstPitch) + e.1 * fmtBits f) (fmtBits f) e.2.1
        let c := applyWrites lrVal ws c
        let c := c.raise (es.foldl (fun a e => a ||| e.2.2.1) 0)
        { c with win := es.foldl (fun a e => a ||| e.2.2.2) c.win }) c

/-! ### Residue checks (R156) -/

/-- The residue of a quantity modulo 511. -/
def residue (n : Int) : Nat := (n % 511).toNat

/-- A lane's product is checked against the product of its operand residues. -/
def laneOk (a b product : Int) : Bool := residue product == residue a * residue b % 511

/-- The tree's unrounded sum is checked against the sum of the residues of the aligned lane values. -/
def treeOk (lanes : List Int) (s : Int) : Bool := residue s == (lanes.map residue).foldl (· + ·) 0 % 511

/-- The rounded result, and an ACM add, are checked against the residue predicted from the sum and the rounding step. -/
def roundOk (s step result : Int) : Bool := residue result == (residue s + residue step) % 511

/-- A check of a quantity that a fault has changed by `err` fails, unless `err` is a multiple of 511. -/
def errorSeen (err : Int) : Bool := residue err != 0

/-! ### SHL -/

/-- A defined SHL (R248, R257). -/
def shlDefined (w cspBytes : Nat) : Bool :=
  let f := bits w 24 4
  let pitch := bits w 52 20
  bits w 4 4 == 0 && bits w 28 4 == 0 && bits w 92 36 == 0 && fmtArray f && 1 ≤ pitch && pitch ≤ 786431 &&
  (fmtIsMx f || bits w 72 20 == 0) &&
  64 * (bits w 32 20 + 63 * pitch) + (if fmtIs4 f then 64 else fmtBits f * 8) ≤ cspBytes &&
  (!fmtIsMx f || 64 * bits w 72 20 + 256 ≤ cspBytes)

/-- The shadow banks an SHL loads (R257). -/
def shlRun (w : Nat) (c : CoreMem) : CoreMem :=
  let f := bits w 24 4
  let n := if fmtIs4 f then 64 else fmtBits f * 8
  { c with shadow := (List.zip (upTo 64) c.shadow).map fun q =>
      { data := memBytes c.csp (64 * (bits w 32 20 + q.1 * bits w 52 20)) n ++ q.2.data.drop n,
        scale := if fmtIsMx f then memBytes c.csp (64 * bits w 72 20 + 4 * q.1) 4 else q.2.scale } }

end Sys2Proof.Machine
end

