-- ==== Sys2Proof/Machine/StateIss.lean ====
section
/-! DEFINITION. The state of the inference subsystem: manifests as parsed, jobs and contexts, cores, partitions,
waymarks (chapters 02, 06 to 10, 12, 13). Times named `ck` are schedule ck of the job unless said otherwise: job-local ck
is the ck of abandoned attempts, plus the schedule ck, plus REPLAY_CK (R55, R56). -/

namespace Sys2Proof.Machine

/-- A region of a manifest: BASE, LENGTH, KIND (R32). -/
structure Region where
  base : Nat
  len : Nat
  kind : Nat
  deriving DecidableEq, Repr

/-- A manifest header with its tables (R31, R32, R323, R324). -/
structure Manifest where
  off : Nat
  cores : Nat
  batch : Nat
  planned : Nat
  reserve : Nat
  bandwidth : Nat
  cspBytes : Nat
  acmBytes : Nat
  wmFirst : Nat
  wmCount : Nat
  shapes : List (Nat × Nat)
  gates : List (Nat × Nat)
  regions : List Region
  digs : List (Nat × DigOpen)   -- slot, entry
  streams : List (Nat × Nat)
  digest : List Byte
  imageEnd : Nat
  deriving DecidableEq, Repr

/-- A picture a tensor stands for: the buffer that holds it, the output buffer reserved with it, and what travels in the
buffer's bytes 16 to 63 (R384). -/
structure TensorRef where
  route : Nat         -- the route its pass was made for (R134)
  stream : Nat
  serial : Nat        -- the model's own number of the picture within its stream
  picture : Nat
  inBuf : Nat
  outBuf : Nat
  slot : Nat          -- route slot of the stream
  status : Nat        -- condition mask of the video side
  digSum : Nat
  digXor : Nat
  params : List Byte  -- the preprocessing block that made it (R125)
  deriving DecidableEq, Repr

/-- A source of a job (R360, R370). -/
inductive JobSrc where
  | host (tag cq shapesOff : Nat) (muster : Bool) (epoch : Nat)
  | route (route : Nat) (tensors : List TensorRef)
  | seq (route stream slot stepId first count : Nat)
  deriving DecidableEq, Repr

/-- An entry of a partition's dispatch list, or a mustered job (R360, R363). -/
structure JobEntry where
  id : Nat
  part : Nat
  fn : Nat
  src : JobSrc
  mf : Nat
  inBufs : List Nat
  outBufs : List Nat
  digests : List (Nat × Nat)
  deriving DecidableEq, Repr

/-- A length register: value and planned value, those before the last write, the ck from which the write acts, and the ck
from which a CFA result is readable (R246, R252, R269). -/
structure LReg where
  value : Nat
  planned : Nat
  oldValue : Nat
  oldPlanned : Nat
  since : Nat
  readable : Nat
  deriving DecidableEq, Repr

def LReg.one : LReg := { value := 1, planned := 1, oldValue := 1, oldPlanned := 1, since := 0, readable := 0 }

/-- A transfer in a core's queue (R40 to R44). -/
structure Transfer where
  store : Bool
  csp : Nat
  planned : Nat
  run : Nat
  addr : Nat
  issue : Nat
  release : Nat
  bound : Nat        -- ceil(n / b)
  due : Nat          -- release by R40, whenever the data lands
  late : Nat         -- slip cause of a release past the bound: 0 none, 7, 8, 9
  landed : Bool      -- data landed, or landing by the bound is guaranteed (R413)
  data : List Byte
  behind : List (Nat × Nat)   -- stores of other cores it is ordered behind: core, issue ck (R44)
  clear : Bool       -- the release of each of them is known
  deriving DecidableEq, Repr

/-- Why a scratchpad span or ACM span is held. -/
inductive MarkKind where
  | vxeDest    -- readable from `ck` (R194)
  | vxeSrc     -- writable from `ck` (R195)
  | arrSrc     -- writable from `ck` (R155)
  | line       -- ACM lines readable from `ck` (R155)
  | acmSrc     -- ACM lines a vector instruction reads until `ck` (R195)
  deriving DecidableEq, Repr

structure Mark where
  kind : MarkKind
  lo : Nat
  hi : Nat
  ck : Nat
  deriving DecidableEq, Repr

/-- Weight words the array still reads (R155): word step n is read until F0 + (n / tp) u + (n % tp) w + 41. -/
structure WeightMark where
  base : Nat
  step : Nat
  count : Nat
  tp : Nat
  u : Nat
  w : Nat
  front : Nat
  deriving DecidableEq, Repr

/-- Work that advances through items at a fixed rate: the item in progress at `t` is `(t - start) * num / den`, at most
`last` (R215, R242). -/
structure Progress where
  start : Nat
  num : Nat
  den : Nat
  last : Nat
  deriving DecidableEq, Repr

def Progress.idle : Progress := { start := 0, num := 0, den := 1, last := 0 }

/-- The item in progress. -/
def Progress.item (p : Progress) (t : Nat) : Nat := min p.last ((t - p.start) * p.num / p.den)

/-- What CORE_VXE_STATE shows of the current or last instruction, and the instruction itself: its word and its latched
lengths VL, VR, VLP, VRP (R211, R215). -/
structure VxeOp where
  fn : Nat
  red : Bool
  wide16 : Bool
  word : Nat
  lens : Nat × Nat × Nat × Nat
  rows : Progress
  deriving DecidableEq, Repr

def VxeOp.none : VxeOp := { fn := 0, red := false, wide16 := false, word := 0, lens := (0, 0, 0, 0), rows := .idle }

/-- An array instruction whose words may still fail a check: its first front and its run-time plan (R152, R156). -/
structure ArrRun where
  front : Nat
  plan : ArrPlan
  deriving DecidableEq, Repr

/-- Issue state of a core (R160, R211, R239, R246, R278). -/
structure CoreRun where
  ip : Nat
  last : Option Nat
  group : List Nat
  scalePre : Option (Nat × Nat)
  slip : Nat
  ended : Option Nat
  lrs : List LReg
  vl : LReg
  vr : LReg
  arrFree : Nat
  vxeFree : Nat
  wsqFree : Nat
  shadowFree : Nat
  shadowWritable : Nat
  shadowDone : Option Nat
  marks : List Mark
  weights : List WeightMark
  queue : List Transfer
  gone : List Transfer           -- released since the core's last issue
  lastRelease : Nat
  nextEntry : Nat
  gate : Option (Nat × Nat)      -- gate-table entry, ck reached
  passed : List Nat
  words : List ArrRun
  judgedTo : Nat                 -- words that left the feeder before this ck have had their verdicts (R152, R160)
  wsqOp : Nat
  wsqChunk : Progress            -- chunk or PLX position in progress (R242)
  deriving DecidableEq, Repr

def CoreRun.start : CoreRun :=
  { ip := 0, last := none, group := [], scalePre := none, slip := 0, ended := none,
    lrs := List.replicate 8 LReg.one, vl := LReg.one, vr := LReg.one, arrFree := 0, vxeFree := 0, wsqFree := 0,
    shadowFree := 0, shadowWritable := 0, shadowDone := none, marks := [], weights := [], queue := [], gone := [],
    lastRelease := 0, nextEntry := 0, gate := none, passed := [], words := [],
    judgedTo := 0, wsqOp := 0, wsqChunk := .idle }

/-- A core's part of a becalm save (R365). -/
structure CoreSave where
  mem : CoreMem
  run : CoreRun
  vxe : VxeOp
  deriving DecidableEq, Repr

/-- CORE_MXA_INJECT (R165). -/
structure Inject where
  arm : Bool
  repeats : Bool
  row : Nat
  column : Nat
  count : Nat
  step : Nat
  owner : Option Nat     -- the job it acts on, once one has started
  deriving DecidableEq, Repr

/-- CORE_MXA_LAST_EVENT (R164). -/
structure LastEvent where
  kind : Nat
  phys : Nat
  row : Nat
  column : Nat
  job : Nat
  deriving DecidableEq, Repr

/-- One inference core with its registers (R162 to R165, R184, R214, R241, R280). -/
structure Core where
  mem : CoreMem
  run : CoreRun
  job : Option Nat
  slot : Nat
  bypass : List (Nat × Bool)     -- physical row, from the health store
  suspect : Option Nat
  inject : Inject
  lastEvent : LastEvent
  residue : Nat
  replays : Nat
  replayCk : Nat
  holds : Nat
  holdCk : Nat
  arithFlags : Nat
  vxe : VxeOp
  vxeBusy : Nat
  vxeWait : Nat
  wsqFlags : Nat
  wsqBusy : Nat
  corrected : Nat
  uncorrected : Nat
  scrubbing : Bool
  deriving DecidableEq, Repr

def Core.reset : Core :=
  { mem := CoreMem.zero, run := CoreRun.start, job := none, slot := 0, bypass := [], suspect := none,
    inject := { arm := false, repeats := false, row := 0, column := 0, count := 0, step := 0, owner := none },
    lastEvent := { kind := 0, phys := 0, row := 0, column := 0, job := 0 },
    residue := 0, replays := 0, replayCk := 0, holds := 0, holdCk := 0, arithFlags := 0, vxe := .none, vxeBusy := 0,
    vxeWait := 0,
    wsqFlags := 0, wsqBusy := 0, corrected := 0, uncorrected := 0, scrubbing := false }

/-- The states of a context (R359). -/
inductive CtxSt where
  | running | blocked | becReady | becBlocked | held
  deriving DecidableEq, Repr

/-- Why a context is held (R372, R374). -/
inductive HeldBy where
  | preempt | busMaster
  deriving DecidableEq, Repr

/-- A save or restore in progress on the save lane (R365). -/
inductive LaneOp where
  | save (target : CtxSt)
  | restore (cores : List Nat)
  deriving DecidableEq, Repr

/-- An injected mismatch (R165): the schedule ck at which the pause starts, the core slot, the logical row and column, and
how many recomputes fail. -/
structure Replay where
  ck : Nat
  slot : Nat
  row : Nat
  column : Nat
  fails : Nat
  deriving DecidableEq, Repr

/-- A started job (R359). -/
structure Ctx where
  entry : JobEntry
  mf : Manifest
  shapes : List Nat
  regions : List Region
  st : CtxSt
  heldBy : Option HeldBy
  lane : Option LaneOp
  cores : List Nat
  coreMask : Nat            -- physical cores of the present attempt, kept while becalmed
  saved : List CoreSave
  saveSlot : Option Nat
  attempt : Nat
  base : Nat                -- job-local ck of abandoned attempts (R56)
  replayCk : Nat
  now : Nat                 -- schedule ck reached
  pauses : List (Nat × Nat) -- replay pauses of this attempt: the schedule ck each holds back, and its ck (R55)
  paused : Bool             -- a replay event is under way (R157)
  replays : List Replay     -- injected mismatches whose verdicts have not yet taken effect (R165)
  spent : List (Nat × Nat)  -- physical row, self-test passed: events of this attempt (R159)
  violation : Bool
  becalmed : Nat
  wmBase : Nat              -- device index of the private block
  adds : List (Nat × Nat × Nat)   -- waymark adds not yet visible: device waymark, amount, visible ck (R268)
  residentTick : Nat        -- last start or restore (R367)
  blockedTick : Nat
  readySeq : Nat            -- order in which becalmed contexts became runnable (R360)
  weightDigest : List Byte
  deriving DecidableEq, Repr

/-- A resident manifest (R361). -/
structure Resident where
  mf : Nat
  len : Nat
  weights : List (Nat × Nat)
  weightDigest : List Byte
  deriving DecidableEq, Repr

/-- The lull a partition is in (R415 to R417). -/
inductive Lull where
  | none
  | refresh (until_ : Nat)
  | retrain (until_ : Nat)
  | forced (until_ : Nat)
  deriving DecidableEq, Repr

/-- Retraining of one owner (R417, R418, R428). -/
structure Retrain where
  lull : Lull
  lastTick : Nat       -- tick of the last retraining lull
  pending : Bool
  nextRefresh : Nat    -- tick at which the next refresh lull falls due (R415)
  deriving DecidableEq, Repr

/-- A partition as sealed, with its registers and internal counts (R350, R377, R339, R427). -/
structure Part where
  id : Nat
  defined : Bool           -- the sealed charter defines it
  owner : Nat
  mask : Nat
  b : Nat
  maxCtx : Nat
  ssmKib : Nat
  wmFirst : Nat
  wmCount : Nat
  priv : Nat
  weight : Nat
  granted : Nat            -- bytes of granted HBM (R349)
  faultRing : Nat
  slipRing : Nat
  save : Nat
  overwrite : Nat
  dauCtl : Nat
  wbRing : Nat
  dgRing : Nat
  dauOverwrite : Nat
  faultSeq : Nat
  slipSeq : Nat
  jobSeq : Nat
  wbNext : Nat
  dgNext : Nat
  signSkipped : Nat
  faultWrites : Nat        -- records written since the ring register was written
  slipWrites : Nat
  wbHeld : List Nat        -- places of the ring that hold an entry since its register was written (R339)
  dgHeld : List Nat
  forced : Nat
  retrain : Retrain
  list : List JobEntry
  mustered : List JobEntry
  resident : List Resident
  deriving DecidableEq, Repr

def Part.reset (id : Nat) : Part :=
  { id := id, defined := false, owner := 0, mask := 0, b := 0, maxCtx := 0, ssmKib := 0, wmFirst := 0, wmCount := 0,
    priv := 0, weight := 1, granted := 0, faultRing := 0, slipRing := 0, save := 0, overwrite := 0, dauCtl := 0,
    wbRing := 0, dgRing := 0, dauOverwrite := 0, faultSeq := 0, slipSeq := 0, jobSeq := 0, wbNext := 0, dgNext := 0,
    signSkipped := 0, faultWrites := 0, slipWrites := 0, wbHeld := [], dgHeld := [], forced := 0,
    retrain := { lull := .none, lastTick := 0, pending := false, nextRefresh := 0 }, list := [], mustered := [],
    resident := [] }

/-- A waymark that is not COUNT 0 with COUNTER clear (R267). -/
structure Waymark where
  ix : Nat
  count : Nat
  counter : Bool
  deriving DecidableEq, Repr

end Sys2Proof.Machine
end

