-- ==== Sys2Proof/Machine/StateVideo.lean ====
section
/-! DEFINITION. The state of the video subsystem: streams, pictures, frame buffers, decode engines, clips, encode engines,
routes, passes, scale-and-tensorise units, crop-resize units (chapters 03, 04, 05, 09). -/

namespace Sys2Proof.Machine

/-- Where a picture stands (R71, R88). -/
inductive PicPhase where
  | fetching                -- its chunk is not whole in the device
  | fetched                 -- whole, not yet ready
  | ready                   -- in the ready set (R71)
  | decoding (engine : Nat) (startVk : Nat)
  | copying                 -- abandoned, lost or unsupported: the copier fills its buffer (R88)
  | decoded                 -- awaits going forward
  | gone                    -- forward: kept while readers, records or a clip still need it
  deriving DecidableEq, Repr

/-- A picture of a stream (R68 to R91), from the fetch of its chunk to its record. Conditions are the status codes of R16
that apply, as a list. -/
structure Pic where
  serial : Nat              -- the model's own number in decode order within the stream
  flags : Nat               -- FLAGS of R68
  bytes : Nat
  addr : Nat
  timestamp : Nat
  overrides : List Byte
  begun : Bool              -- the fetch of its bytes has begun (R393)
  cut : Option Nat          -- bytes received where the fetch ended in error (R450)
  fetchedVk : Nat
  facts : Option UnitFacts
  phase : PicPhase
  shown : Bool              -- takes a picture number
  number : Option Nat
  buf : Option Nat          -- buffer index in the stream's VIDEO class
  noDecode : Bool           -- lost, skipped, refused or show-existing: no engine takes it
  conditions : List Nat
  overBudget : Bool
  byteOffset : Nat
  cuAddr : Nat
  decodeVk : Nat
  taint : Option Nat        -- TAINT_SOURCE as a serial
  subst : Option Nat        -- SUBST_PICTURE as a serial
  coverage : Nat
  concealKind : Nat
  engine : Nat
  reference : Bool
  heavy : Bool
  width : Nat
  height : Nat
  depth : Nat
  epoch : Nat               -- output order: coded video sequence, then `order` within it (R78)
  order : Int
  latency : Nat             -- HEVC pictures that precede it in output order, finished since it waits (R78)
  report : List Byte        -- the decode report, completed when the picture goes forward (R80)
  recordsDue : List Nat     -- route slots whose record is not yet built (R28)
  maskDue : Bool            -- its mask list is not yet committed (R106)
  maskFull : Bool
  maskOverflow : Bool
  masks : List (Nat × Nat × Nat × Nat × Nat × Nat)   -- x0 y0 x1 y1 class source
  deriving DecidableEq, Repr

/-- The marks of a frame buffer (R77). -/
structure Frame where
  cls : Nat
  ix : Nat
  stream : Nat
  serial : Nat
  order : Int
  refShort : Bool
  refLong : Bool
  outputWait : Nat          -- pictures that wait to show it
  lastOutput : Bool
  readers : Nat
  cacheUntil : Option Nat   -- tick at which the cache time-to-live expires
  age : Nat                 -- order of CACHE_HOLD, oldest first (R76)
  deriving DecidableEq, Repr

/-- An open or closing stream: the configuration half of its entry and the status words (R64). -/
structure Stream where
  id : Nat
  fn : Nat
  cfg : List Byte           -- offsets 0x00 to 0x1F as copied at OPEN
  cls : Nat                 -- VIDEO class (R389)
  closing : Bool
  heavy : Bool
  refusing : Bool
  tainted : Bool
  nextPicture : Nat
  abandoned : Nat
  concealed : Nat
  overBudget : Nat
  deadlineMiss : Nat
  skipped : Nat
  refused : Nat
  nextSerial : Nat
  epoch : Nat               -- of the latest picture in decode order
  bound : Option Nat        -- submission queue that fetches its chunks
  pics : List Pic           -- in decode order
  flushTo : Nat             -- pictures with a serial below this go forward without waiting for reorder (R69)
  lastOut : Option Nat      -- serial of the last output picture
  refSlots : List (Option Nat)   -- the eight AV1 reference slots: the serials of their frames (R69, R85)
  deriving DecidableEq, Repr

/-- A decode engine (R92, R96). -/
structure VdecEngine where
  job : Option (Nat × Nat)  -- stream, serial
  lastStream : Nat
  decodeVk : Nat
  busyVk : Nat
  deriving DecidableEq, Repr

/-- A notice of VDEC_HEAVY_LOG (R95). -/
structure HeavyNote where
  stream : Nat
  count : Nat
  deriving DecidableEq, Repr

/-- A clip, from its START until its last record is due (R101 to R117). -/
structure Clip where
  id : Nat                  -- the model's own number
  route : Nat
  fn : Nat
  stream : Nat
  engine : Nat
  cfg : List Byte           -- the encode-context entry as copied at START
  ctxIx : Nat
  startAt : Nat             -- number of the first picture wanted (R103)
  stopAt : Option Nat       -- number of the last picture, once STOP has named it
  ended : Option Nat        -- END_REASON once no further picture is coded
  queue : List (Nat × Nat)  -- ready pictures: serial, tick at which they became ready (R104)
  coding : Option Nat       -- serial on the engine
  n : Nat                   -- pictures coded
  sinceIntra : Nat
  fullness : Nat            -- D before the next picture, bits
  lastQp : List (Option Nat)    -- by type: intra, inter
  prevBits : List Nat
  size : Nat × Nat          -- of the previous picture
  counts : List Nat         -- CODED, CLIPPED, QP_OVERRIDE, FULLNESS of the entry
  staging : List (List Byte × List Byte)   -- coded data of a picture and its evidence record, not yet written
  out : Option (Nat × Nat × Nat × Nat)     -- the current output buffer: address, length, bytes used, entry number
  recon : Nat               -- ENCODE blocks of the reconstructed picture
  refPic : List (List Nat) × List (List Nat)   -- the reconstructed picture: luma and chroma rows (R98, R99)
  endDue : Option Nat       -- PICTURE of the end-only record owed once the picture on the engine is coded (R103)
  deriving DecidableEq, Repr

/-- An encode engine (R119, R122) with its masked copy of the picture it codes (R108). -/
structure VencEngine where
  job : Option (Nat × Nat)  -- clip, serial
  lastRoute : Nat
  startTick : Nat
  codeVk : Nat
  busyVk : Nat
  luma : List (List Nat)    -- masked samples, row by row
  chroma : List (List Nat)  -- Cb and Cr interleaved
  deriving DecidableEq, Repr

/-- A bound route: its 128 B descriptor (R123) and the tensor shape it makes by default. -/
structure Route where
  id : Nat
  fn : Nat
  desc : List Byte
  bound : Bool              -- an unbound descriptor stays for pictures in flight (log 17)
  deriving DecidableEq, Repr

/-- A scale-and-tensorise pass that has been created (R132). -/
structure Pass where
  seq : Nat
  route : Nat
  slot : Nat
  stream : Nat
  serial : Nat
  inBuf : Option Nat
  outBuf : Option Nat
  unit : Option Nat
  startTick : Nat
  params : List Byte        -- the effective parameter block, read when it begins
  norm : List Nat           -- the normalisation set as it stood when it began
  deriving DecidableEq, Repr

/-- A scale-and-tensorise unit (R141). -/
structure PscUnit where
  pass : Option Nat
  lastRoute : Nat
  passVk : Nat
  busyVk : Nat
  deriving DecidableEq, Repr

/-- A crop task (R232, R233). -/
structure CropTask where
  seq : Nat
  fn : Nat
  route : Nat
  part : Nat
  unit : Option Nat         -- none until its buffer is granted
  picture : Bool            -- SOURCE 1: a decoded picture
  stream : Nat
  serial : Nat
  srcDepot : Nat            -- buffer of a feature map
  srcBuf : Nat
  w : Nat
  h : Nat
  chans : Nat
  srcFmt : Nat
  outW : Nat
  outH : Nat
  s : Nat
  filter : Nat
  fill : Nat
  params : List Byte        -- preprocessing block for colour and normalisation of a picture
  norm : List Nat           -- the normalisation set as it stood when it started
  outFmt : Nat
  boxes : List (Nat × Nat × Nat × Nat)
  boxMask : List Bool
  chanMask : List Bool
  dstBuf : Option Nat
  stepId : Nat              -- the re-identification step it belongs to
  running : Bool
  startTick : Nat
  deriving DecidableEq, Repr

/-- A crop-resize unit (R241, R244). -/
structure CruUnit where
  lastRoute : Nat
  busyCk : Nat
  deriving DecidableEq, Repr

/-- The video subsystem with its device-wide counters. -/
structure Video where
  streams : List Stream
  frames : List Frame
  vdec : List VdecEngine
  copier : List (Nat × Nat)      -- stream, serial, in abandon order
  copierTick : Nat               -- when the copy of the first began
  clips : List Clip
  clipSeq : Nat
  venc : List VencEngine
  routes : List Route
  passes : List Pass
  passSeq : Nat
  psc : List PscUnit
  cropTasks : List CropTask
  cropSeq : Nat
  cru : List CruUnit
  holdSeq : Nat
  deriving DecidableEq, Repr

def Video.reset : Video :=
  { streams := [], frames := [],
    vdec := List.replicate 8 { job := none, lastStream := 0, decodeVk := 0, busyVk := 0 },
    copier := [], copierTick := 0, clips := [], clipSeq := 0,
    venc := List.replicate 2 { job := none, lastRoute := 0, startTick := 0, codeVk := 0, busyVk := 0, luma := [], chroma := [] },
    routes := [], passes := [], passSeq := 0,
    psc := List.replicate 4 { pass := none, lastRoute := 0, passVk := 0, busyVk := 0 },
    cropTasks := [], cropSeq := 0,
    cru := List.replicate 2 { lastRoute := 0, busyCk := 0 }, holdSeq := 0 }

end Sys2Proof.Machine
end

