-- ==== Sys2Proof/Machine/Tracker.lean ====
section
/-! DEFINITION. The track engine's arithmetic and records (R286 to R306): detections, association, motion, zones,
verdict entries, and the bytes of result and extension records. -/

namespace Sys2Proof.Machine

/-- States of a track that is not retired (R291). -/
inductive TrackSt where
  | tentative (hits : Nat)
  | confirmed
  | lost (age : Nat)
  deriving DecidableEq, Repr

/-- A track (R284, R290); FP32 values by their encodings. -/
structure Track where
  id : Nat
  cls : Nat
  st : TrackSt
  delta : Nat
  cx : Nat
  cy : Nat
  w : Nat
  h : Nat
  vx : Nat
  vy : Nat
  conf : Nat
  emb : List Nat              -- FP16 encodings; empty where absent
  seqBuf : Option (Nat × Nat)   -- its sequence state: tracker depot and buffer (R293)
  fresh : Bool                -- joined in the present picture
  missed : Nat                -- pictures unmatched since confirmed (R106)
  deriving DecidableEq, Repr

/-- A kept detection (R287): box in decoded-picture samples, FP32 encodings. -/
structure Det where
  x0 : Nat
  y0 : Nat
  x1 : Nat
  y1 : Nat
  conf : Nat
  cls : Nat
  emb : List Nat
  deriving DecidableEq, Repr

/-- A zone of the charter (R303, R353). -/
structure Zone where
  id : Nat
  stream : Nat
  slot : Nat
  verts : List (Nat × Nat)
  threshold : Nat
  classes : Nat
  deriving DecidableEq, Repr

/-- A verdict entry that has been rewritten since SEAL (R305, R306). -/
structure Verdict where
  zone : Nat
  count : Nat
  clear : Bool
  lost : Bool
  maxConf : Nat
  updated : Option (Nat × Nat)   -- leeward ms and lk of the last update; none where COUNT was never set
  seq : Nat
  deriving DecidableEq, Repr

def g32 (n : Nat) : FV := fDec fp32 n
def e32 (v : FV) : Nat := fEnc fp32 v

/-- A field of the 32 B TRACKER block (R285). -/
def trk (t : List Byte) (o n : Nat) : Nat := at_ t o n
def trkHits (t : List Byte) : Nat := if trk t 0xC 1 = 0 then 3 else trk t 0xC 1
def trkMaxAge (t : List Byte) : Nat := if trk t 0xD 1 = 0 then 30 else trk t 0xD 1
def trkEmb (t : List Byte) : Nat := 16 * trk t 0x14 1
def trkReid (t : List Byte) : Option Nat := if trk t 0x12 2 = 0xFFFF then none else some (trk t 0x12 2)
def trkCropW (t : List Byte) : Nat := 16 * (bits (trk t 0x16 1) 0 4 + 1)
def trkCropH (t : List Byte) : Nat := 16 * (bits (trk t 0x16 1) 4 4 + 1)

/-- FP32 non-negative and finite. -/
def f32NonNeg (n : Nat) : Bool := (g32 n).isFin && !(fLt (g32 n) (fZero false))

/-- Every field of a TRACKER block lies in its range (R285). -/
def trackerOk (t : List Byte) : Bool :=
  f32NonNeg (trk t 0 4) && f32NonNeg (trk t 4 4) && trk t 0xC 1 ≤ 15 && 1 ≤ trk t 0x10 2 && trk t 0x10 2 ≤ 4096 &&
  trk t 0x14 1 ≤ 4 && trk t 0x15 1 ≤ 15 && trk t 0x17 1 < 4 && (g32 (trk t 0x18 4)).isFin

/-- A preprocessing block as sampled: crop and grid resolved for a decoded size (R125, R128). -/
structure CropGeo where
  cropX : Nat
  cropY : Nat
  cropW : Nat
  cropH : Nat
  rot : Nat
  wp : Nat
  hp : Nat
  deriving DecidableEq, Repr

def cropGeo (p : List Byte) (w h : Nat) : CropGeo :=
  let cw := at_ p 4 2
  let ch := at_ p 6 2
  let rot := at_ p 0xC 1
  let ow := at_ p 8 2
  let oh := at_ p 0xA 2
  { cropX := at_ p 0 2, cropY := at_ p 2 2, cropW := if cw = 0 then w else cw, cropH := if ch = 0 then h else ch,
    rot := rot, wp := if rot % 2 = 0 then ow else oh, hp := if rot % 2 = 0 then oh else ow }

/-- A tensor point back on the grid: rotation first (R128, R287). Continuous coordinates: an edge at u lies at Wp - u. -/
def gridOf (g : CropGeo) (u v : FV) : FV × FV :=
  let wp := fOfInt g.wp
  let hp := fOfInt g.hp
  match g.rot with
  | 0 => (u, v)
  | 1 => (v, fSub fp32 hp u)
  | 2 => (fSub fp32 wp u, fSub fp32 hp v)
  | _ => (fSub fp32 wp v, u)

/-- A tensor point in decoded-picture samples (R287). -/
def toPicture (g : CropGeo) (u v : FV) : FV × FV :=
  let p := gridOf g u v
  let ax := fun (c : Nat) (w n : Nat) (q : FV) =>
    fAdd fp32 (fOfInt c) (fDiv fp32 (fMul fp32 q (fOfInt w)) (fOfInt n))
  (ax g.cropX g.cropW g.wp p.1, ax g.cropY g.cropH g.hp p.2)

/-- A box mapped corner by corner, its edges put in order. -/
def boxToPicture (g : CropGeo) (x0 y0 x1 y1 : FV) : FV × FV × FV × FV :=
  let a := toPicture g x0 y0
  let b := toPicture g x1 y1
  (fMin a.1 b.1, fMin a.2 b.2, fMax a.1 b.1, fMax a.2 b.2)

/-- Detections of a list of bytes (R286, R287): the kept ones in order, entries read, entries dropped, overflow. -/
def readDets (t : List Byte) (g : CropGeo) (bs : List Byte) (regionLen : Nat) : List Det × Nat × Bool :=
  let emb := trkEmb t
  let stride := 32 + 2 * emb
  let count := at_ bs 0 4
  let n := min count (min 1024 ((regionLen - 64) / stride))
  let rd := fun i =>
    let o := 64 + i * stride
    let f := fun k => g32 (at_ bs (o + 4 * k) 4)
    let es := (upTo emb).map fun k => at_ bs (o + 32 + 2 * k) 2
    let fin := (upTo 5).all (fun k => (f k).isFin) && es.all fun e => (fDec fp16 e).isFin
    let bad := !fin || fLt (f 2) (f 0) || fLt (f 3) (f 1) ||
      fLt (f 4) (.fin false (trk t 0xF 1) (-8))
    if bad then none
    else
      let b := boxToPicture g (f 0) (f 1) (f 2) (f 3)
      some ({ x0 := e32 b.1, y0 := e32 b.2.1, x1 := e32 b.2.2.1, y1 := e32 b.2.2.2,
              conf := at_ bs (o + 16) 4, cls := at_ bs (o + 20) 4, emb := es } : Det)
  let kept := (upTo n).filterMap rd
  (kept, n - kept.length, decide (n < count))

/-- Class `k` is tracked (R285, R287). -/
def tracked (t : List Byte) (k : Nat) : Bool := k < 32 && bitAt (trk t 0x1C 4) k

/-- Δ of a track in the present picture, as an exact FP32 value (R288, R290). -/
def trDelta (tr : Track) : FV := fRnd fp32 false (fOfInt (tr.delta + 1 : Nat))

/-- The predicted centre (R290). -/
def predict (tr : Track) : FV × FV :=
  let d := trDelta tr
  (fAdd fp32 (g32 tr.cx) (fMul fp32 (g32 tr.vx) d), fAdd fp32 (g32 tr.cy) (fMul fp32 (g32 tr.vy) d))

/-- A box from a centre and a size. -/
def boxAt (c : FV × FV) (w h : FV) : Box :=
  let half := fun x => fDiv fp32 x (.fin false 2 0)
  (fSub fp32 c.1 (half w), fSub fp32 c.2 (half h), fAdd fp32 c.1 (half w), fAdd fp32 c.2 (half h))

def predBox (tr : Track) : Box := boxAt (predict tr) (g32 tr.w) (g32 tr.h)
def trackBox (tr : Track) : Box := boxAt (g32 tr.cx, g32 tr.cy) (g32 tr.w) (g32 tr.h)
def detBox (d : Det) : Box := (g32 d.x0, g32 d.y0, g32 d.x1, g32 d.y1)

/-- IoU by the formulas of R209; a free value where intersection and union are 0 (log 23). -/
def iou (a b : Box) : FV :=
  let inter := (boxInter a b).1
  let uni := fSub fp32 (fAdd fp32 (boxArea a).1 (boxArea b).1) inter
  if uni.isZero && inter.isZero then g32 Config.iouOfNothing.toNat else fDiv fp32 inter uni

/-- The FP32 dot product of two embeddings, in element order (R288). -/
def dotEmb (a b : List Nat) : FV :=
  (List.zip a b).foldl (fun s p => fAdd fp32 s (fMul fp32 (fDec fp16 p.1) (fDec fp16 p.2))) (fZero false)

def fOne : FV := .fin false 1 0

/-- The distance of two embeddings (R288). -/
def embDist (a b : List Nat) : FV :=
  if a.isEmpty || b.isEmpty then fOne
  else fMax (fZero false) (fMin (.fin false 2 0) (fSub fp32 fOne (dotEmb a b)))

/-- The cost of a pair (R288). -/
def pairCost (t : List Byte) (d : Det) (tr : Track) : FV :=
  let a := g32 (trk t 0 4)
  let b := g32 (trk t 4 4)
  let i := iou (detBox d) (predBox tr)
  let useB := fLt (fZero false) b && trkEmb t != 0
  let dist := if useB then embDist d.emb tr.emb else fOne
  let tb := if b.isZero then fZero false else fMul fp32 b dist
  fAdd fp32 (fMul fp32 a (fSub fp32 fOne i)) tb

/-- `a ≤ b`, false with a NaN. -/
def fLe (a b : FV) : Bool := !a.isNan && !b.isNan && !fLt b a

/-- A pair may match (R288). -/
def eligible (t : List Byte) (d : Det) (tr : Track) : Bool :=
  d.cls == tr.cls && fLe (pairCost t d tr) (g32 (trk t 0x18 4)) &&
  (fLe (.fin false (trk t 0xE 1) (-8)) (iou (detBox d) (predBox tr)) || fLt (fZero false) (g32 (trk t 4 4)))

/-- Insertion by ascending cost, then detection index, then the older track (R289). -/
def insertPair (p : FV × Nat × Nat) : List (FV × Nat × Nat) → List (FV × Nat × Nat)
  | [] => [p]
  | q :: qs =>
    if fLt p.1 q.1 || (!fLt q.1 p.1 && (p.2.1 < q.2.1 || (p.2.1 == q.2.1 && p.2.2 < q.2.2))) then p :: q :: qs
    else q :: insertPair p qs

/-- Greedy matching over the sorted pairs: (detection, track position) pairs (R289). -/
def greedy : List (FV × Nat × Nat) → List (Nat × Nat) → List (Nat × Nat)
  | [], m => m
  | p :: ps, m =>
    if m.any fun q => q.1 == p.2.1 || q.2 == p.2.2 then greedy ps m else greedy ps ((p.2.1, p.2.2) :: m)

/-- The matches of a picture; tracks in creation order (R288, R289). -/
def matches_ (t : List Byte) (dets : List Det) (trs : List Track) : List (Nat × Nat) :=
  let di := (List.zip (upTo dets.length) dets).filter fun p => tracked t p.2.cls
  let ti := List.zip (upTo trs.length) trs
  greedy ((di.flatMap fun d => (ti.filter fun r => eligible t d.2 r.2).map fun r =>
    (pairCost t d.2 r.2, d.1, r.1)).foldl (fun l p => insertPair p l) []) []

/-- The motion update of a matched track (R290, R291). -/
def updateTrack (t : List Byte) (reid : Bool) (d : Det) (tr : Track) : Track :=
  let al : FV := .fin false (trk t 8 2) (-16)
  let be_ : FV := .fin false (trk t 0xA 2) (-16)
  let dl := trDelta tr
  let pc := predict tr
  let b := detBox d
  let two : FV := .fin false 2 0
  let mcx := fDiv fp32 (fAdd fp32 b.1 b.2.2.1) two
  let mcy := fDiv fp32 (fAdd fp32 b.2.1 b.2.2.2) two
  let mw := fSub fp32 b.2.2.1 b.1
  let mh := fSub fp32 b.2.2.2 b.2.1
  let rx := fSub fp32 mcx pc.1
  let ry := fSub fp32 mcy pc.2
  let vel := fun v r => fAdd fp32 v (fDiv fp32 (fMul fp32 be_ r) dl)
  let siz := fun s m => fAdd fp32 s (fMul fp32 al (fSub fp32 m s))
  { tr with
    cx := e32 (fAdd fp32 pc.1 (fMul fp32 al rx)), cy := e32 (fAdd fp32 pc.2 (fMul fp32 al ry)),
    vx := e32 (vel (g32 tr.vx) rx), vy := e32 (vel (g32 tr.vy) ry),
    w := e32 (siz (g32 tr.w) mw), h := e32 (siz (g32 tr.h) mh),
    conf := d.conf, delta := 0, missed := 0, fresh := false,
    emb := if reid then tr.emb else d.emb,
    st := match tr.st with
      | .tentative n => if trkHits t ≤ n + 1 then .confirmed else .tentative (n + 1)
      | .confirmed => .confirmed
      | .lost _ => .confirmed }

/-- An unmatched track in a picture with observation; none where it retires (R291). -/
def missTrack (t : List Byte) (tr : Track) : Option Track :=
  match tr.st with
  | .tentative _ => none
  | .confirmed => some { tr with st := .lost 1, delta := tr.delta + 1, missed := tr.missed + 1, fresh := false }
  | .lost n =>
    if trkMaxAge t < n + 1 then none
    else some { tr with st := .lost (n + 1), delta := tr.delta + 1, missed := tr.missed + 1, fresh := false }

/-- A new track from a detection (R290, R291). -/
def newTrack (t : List Byte) (id : Nat) (reid : Bool) (d : Det) (buf : Option (Nat × Nat)) : Track :=
  let b := detBox d
  let two : FV := .fin false 2 0
  { id := id, cls := d.cls, st := if trkHits t ≤ 1 then .confirmed else .tentative 1, delta := 0,
    cx := e32 (fDiv fp32 (fAdd fp32 b.1 b.2.2.1) two), cy := e32 (fDiv fp32 (fAdd fp32 b.2.1 b.2.2.2) two),
    w := e32 (fSub fp32 b.2.2.1 b.1), h := e32 (fSub fp32 b.2.2.2 b.2.1), vx := 0, vy := 0, conf := d.conf,
    emb := if reid then [] else d.emb, seqBuf := buf, fresh := true, missed := 0 }

def isConfirmed (tr : Track) : Bool := match tr.st with | .confirmed => true | _ => false
def isTentative (tr : Track) : Bool := match tr.st with | .tentative _ => true | _ => false
def isLost (tr : Track) : Bool := match tr.st with | .lost _ => true | _ => false

/-- The box of R304: updated for a confirmed track, predicted for a lost one. A lost track's Δ already counts the
present picture. -/
def footBox (tr : Track) : Box :=
  if isLost tr then predBox { tr with delta := tr.delta - 1 } else trackBox tr

/-- A foot-point (R304). -/
def footPoint (tr : Track) : FV × FV :=
  let b := footBox tr
  (fDiv fp32 (fAdd fp32 b.1 b.2.2.1) (.fin false 2 0), b.2.2.2)

/-- A finite value as an integer over 2^-200, exact for the FP32 values met here, which are multiples of 2^-149. -/
def exactInt : FV → Int
  | .fin s m e => let k := e + 200; if 0 ≤ k then sInt s (m <<< k.toNat) else sInt s (m >>> (-k).toNat)
  | _ => 0

/-- The even-odd test, exact (R304). -/
def inside (vs : List (Nat × Nat)) (p : FV × FV) : Bool :=
  if !p.1.isFin || !p.2.isFin then false
  else
    let u : Int := (2 ^ 200 : Nat)
    let px := exactInt p.1
    let py := exactInt p.2
    let n := vs.length
    (upTo n).foldl (fun acc i =>
      let a : Nat × Nat := (vs[i]?).getD (0, 0)
      let b : Nat × Nat := (vs[(i + n - 1) % n]?).getD (0, 0)
      let yi := (a.2 : Int) * u
      let yj := (b.2 : Int) * u
      if decide (py < yi) != decide (py < yj) then
        -- px < xi + (py - yi)(xj - xi)/(yj - yi), multiplied by yj - yi
        let dy := yj - yi
        let l := (px - (a.1 : Int) * u) * dy
        let r := (py - yi) * (((b.1 : Int) - (a.1 : Int)) * u)
        if (if 0 < dy then decide (l < r) else decide (r < l)) then !acc else acc
      else acc) false

/-- CONF of R301. -/
def conf16 (n : Nat) : Nat :=
  match fMulX (fMax (fZero false) (fMin fOne (g32 n))) (.fin false 65535 0) with
  | .fin s m e => (rneInt s m e).toNat
  | _ => 0

/-- Tracks that count in a zone (R305). -/
def zoneTracks (z : Zone) (trs : List Track) : List Track :=
  trs.filter fun tr => (isConfirmed tr || isLost tr) && tr.cls < 32 && bitAt z.classes tr.cls &&
    z.threshold ≤ conf16 tr.conf && inside z.verts (footPoint tr)

/-- A verdict entry rewritten for a picture (R305). -/
def rewriteVerdict (z : Zone) (trs : List Track) (observed clear : Bool) (now : Nat × Nat) (old : Option Verdict) :
    Verdict :=
  let v := old.getD { zone := z.id, count := 0, clear := false, lost := false, maxConf := 0, updated := none, seq := 0 }
  let v := { v with seq := (v.seq + 1) % 2 ^ 32 }
  if observed then
    let c := zoneTracks z trs
    { v with count := c.length, maxConf := c.foldl (fun m tr => max m (conf16 tr.conf)) 0,
             clear := c.isEmpty && clear, lost := false, updated := some now }
  else { v with clear := false, lost := true }

/-- STALENESS_MS of an entry: from the update to now, on the leeward counter (R306). -/
def staleness (now upd : Nat × Nat) : Nat :=
  min 65535 (((now.1 * 52000 + now.2) - (upd.1 * 52000 + upd.2)) / 52000)

/-- The 16 bytes of a verdict entry (R306). `known` says the zone is in the zone map. -/
def verdictBytes (zone : Nat) (known frozen : Bool) (v : Option Verdict) (now : Nat × Nat) : List Byte :=
  let v0 := v.getD { zone := zone, count := 0, clear := false, lost := false, maxConf := 0, updated := none, seq := 0 }
  if !known then be 2 0 ++ be 2 0 ++ [2] ++ zeros 11
  else
    let never := v0.updated.isNone
    let flags := b2n v0.clear + 4 * b2n frozen + 8 * b2n v0.lost + 16 * b2n never
    let stale := match v0.updated with
      | some u => staleness now u
      | none => 65535
    be 2 zone ++ be 2 v0.count ++ le 1 flags ++ [0] ++ be 2 v0.maxConf ++ be 2 stale ++ [0, 0] ++ be 4 v0.seq

/-! ### Records -/

/-- The CONDITION bit of a status code (R298); OK sets none. -/
def condBit (code : Nat) : Nat :=
  if code = 0 then 0
  else
    let l := code % 16
    match code / 16 with
    | 0 => 2 ^ l
    | 1 => 2 ^ (8 + l)
    | 2 => 2 ^ (16 + l)
    | 3 => 2 ^ (24 + l)
    | 4 => 2 ^ (28 + l)
    | _ => 0

/-- CONDITION of a list of codes (R18, R298). -/
def condMask (codes : List Nat) : Nat := codes.foldl (fun m c => m ||| condBit c) 0

/-- STATUS of a list of codes (R18). -/
def statusOf (codes : List Nat) : Nat := codes.foldl max 0

/-- Codes that are not delivered (R16, R127). -/
def notDelivered (code : Nat) : Bool :=
  code == 0x05 || code == 0x10 || code == 0x11 || code == 0x13 || code == 0x20 || code == 0x26 || code == 0x40 ||
  code == 0x41

/-- The header of a record (R297), SEQ left 0: the result writer fills it. -/
def recHead (kind status ext flags cond route stream : Nat) : List Byte :=
  zeros 4 ++ le 1 kind ++ le 1 status ++ le 1 ext ++ le 1 flags ++ le 4 cond ++ le 2 route ++ le 2 stream

/-- Rounds an FP32 coordinate down or up, clipped to [0, lim] (R106, R287). -/
def edge (up : Bool) (lim : Nat) (n : Nat) : Nat :=
  match g32 n with
  | .fin s m e =>
    let f := fFloor s m e
    let r := if up then -(fFloor (!s) m e) else f
    (clampI 0 lim r).toNat
  | .inf s => if s then 0 else lim
  | .nan => 0

/-- A detection entry (R301). -/
def detBytes (w h : Nat) (d : Det) (trackId mark : Nat) : List Byte :=
  le 2 (edge false w d.x0) ++ le 2 (edge false h d.y0) ++ le 2 (edge true w d.x1) ++ le 2 (edge true h d.y1) ++
  le 4 trackId ++ le 2 (conf16 d.conf) ++ le 1 (min d.cls 255) ++ le 1 mark

/-- An EXTENSION record: its header repeats STATUS, FLAGS and CONDITION of the head (R297, R302). -/
def extRec (codes : List Nat) (flags route stream type index picture : Nat) (payload : List Byte) : List Byte :=
  recHead 2 (statusOf codes) 0 flags (condMask codes) route stream ++ le 1 type ++ le 1 index ++ zeros 2 ++ le 4 picture ++
  zeros 8 ++ fit 96 payload

/-- Cuts a list into groups of `n`. -/
def cut {α : Type} (n : Nat) : Nat → List α → List (List α)
  | 0, _ => []
  | fuel + 1, l => if l.isEmpty then [] else l.take n :: cut n fuel (l.drop n)

end Sys2Proof.Machine
end

