-- ==== Sys2Proof/Machine/StateDev.lean ====
section
/-! DEFINITION. The state of the platform: charter, depots, stacked memory, host interface, leeward domain, clocks,
security, audit unit, track engine and verdict port (chapters 11 to 20). -/

namespace Sys2Proof.Machine

/-! ### Charter -/

/-- A PARTITIONS entry (R350). -/
structure PartCfg where
  id : Nat
  owner : Nat
  mask : Nat
  b : Nat
  maxCtx : Nat
  ssmKib : Nat
  wmFirst : Nat
  wmCount : Nat
  priv : Nat
  pcs : List Nat
  deriving DecidableEq, Repr

/-- A FUNCTIONS entry (R351), with the place its COMMON_MIB takes in the common pool. -/
structure FuncCfg where
  fn : Nat
  streamFirst : Nat
  streamCount : Nat
  routeFirst : Nat
  routeCount : Nat
  queueFirst : Nat
  queueCount : Nat
  quota : Nat
  commonMib : Nat
  deriving DecidableEq, Repr

/-- A DEPOTS entry (R397). -/
structure DepotCfg where
  kind : Nat
  index : Nat
  bufKib : Nat
  count : Nat
  minA : Nat
  minB : Nat
  hw1 : Nat
  hw2 : Nat
  hyst : Nat
  deriving DecidableEq, Repr

/-- The VERDICT_PORT section (R354). -/
structure PortCfg where
  enable : Bool
  mac : List Byte
  allow : List (List Byte)
  deriving DecidableEq, Repr

/-- A charter as LOAD parses it (R345 to R354, R397, R419). -/
structure Charter where
  id : Nat
  digest : List Byte
  parts : List PartCfg
  funcs : List FuncCfg
  mesh : List (Nat × Nat)
  depots : List DepotCfg
  zones : List Zone
  port : Option PortCfg
  retrainMs : Nat
  forceMs : Nat
  scrubHours : Nat
  spares : List Nat
  deriving DecidableEq, Repr

/-- The three states of the charter (R355). -/
inductive CharterState where
  | empty | loaded | sealed
  deriving DecidableEq, Repr

/-- The outcome a charter command reports when it ends (R378). -/
structure CharterRes where
  op : Nat
  result : Nat
  section_ : Nat
  entry : Nat
  deriving DecidableEq, Repr

/-- The charter with its command registers and the staging area (R345, R355, R377, R378). -/
structure CharterSt where
  st : CharterState
  cur : Option Charter
  staging : Mem
  busy : Option CharterRes
  dropped : Bool
  result : Nat
  tag : Nat
  section_ : Nat
  entry : Nat
  deriving DecidableEq, Repr

/-! ### Depots -/

/-- A depot (R382 to R392, R400). An OVERFLOW depot has `records` in place of buffers. -/
structure Depot where
  id : Nat
  bufKib : Nat
  count : Nat
  minA : Nat
  minB : Nat
  hw1 : Nat
  hw2 : Nat
  hyst : Nat
  base : Nat                  -- byte offset of buffer 0 in its owner's address space
  free : List Nat             -- the free list, head first (R385)
  held : List (Nat × Nat)     -- buffer, owner
  res : List (Nat × Nat)      -- owner, reservation
  records : Nat               -- OVERFLOW: records held
  h1 : Bool
  h2 : Bool
  seen1 : Bool
  seen2 : Bool
  rebuild : Bool
  peak : Nat
  ev1 : Nat
  ev2 : Nat
  tagErr : Nat
  deriving DecidableEq, Repr

/-! ### Stacked memory -/

/-- One memory controller's registers (R427, R428). -/
structure Mc where
  temp : Nat
  degraded : Bool
  corrected : Nat
  retried : Nat
  lost : Nat
  lastError : Nat
  deriving DecidableEq, Repr

/-- A row repair (R424, R500). -/
structure RowRepair where
  pc : Nat
  bank : Nat
  row : Nat
  hard : Bool
  deriving DecidableEq, Repr

/-- A migration that copies (R425). -/
structure Migration where
  src : Nat
  dst : Nat
  startTick : Nat
  copied : Bool
  deriving DecidableEq, Repr

/-- The stacks and their controllers (R404 to R428). HBM cells are keyed `pc * 1,207,959,552 + x` (R408). -/
structure Memory where
  hbm : Mem
  open_ : Bool                           -- the zeroing of SEAL has ended (R355)
  lists : List (Nat × List Nat)          -- owner, its interleave list; owner 7 is the common pool
  mcs : List Mc
  spares : List Nat
  migration : Option Migration
  migrated : List (Nat × Nat)
  repairs : List RowRepair
  failing : List (Nat × Nat × Nat)       -- rows to repair: pc, bank, row
  correctedLines : List (Nat × Nat × Nat × Nat × Nat)  -- pc, bank, row, line, tick
  lostReads : List (Nat × Nat)           -- channel, tick
  mirror : Mem                           -- keyed (function * 4 + table) * 2^32 + offset (R422)
  commonRetrain : Retrain
  laneBusy : Option Nat                  -- the job whose save or restore the save lane serves
  laneStart : Nat
  laneQueue : List Nat                   -- jobs whose save or restore waits for the lane
  deriving DecidableEq, Repr

/-! ### Host interface -/

/-- States of a queue (R443, R461). -/
inductive QueueSt where
  | disabled | enabled | error
  deriving DecidableEq, Repr

/-- A hardware queue (R442 to R451). -/
structure Queue where
  id : Nat
  fn : Nat
  desc : List Byte
  st : QueueSt
  driver : Nat
  device : Nat
  disabling : Bool
  sinceIrq : Nat
  firstTick : Option Nat
  waits : Option Nat          -- the partition its next entry names, held by headwind-2 (R393)
  deriving DecidableEq, Repr

/-- A record bound for a completion queue, not yet written (R448), and what its issue sets free (R391). -/
structure DueRec where
  fn : Nat
  queue : Nat
  bytes : List Byte
  last : Option (Nat × Nat)    -- outcome of a route picture: output buffer's depot and index
  deriving DecidableEq, Repr

/-- A record in an OVERFLOW depot (R396). -/
structure OvRec where
  queue : Nat
  bytes : List Byte
  deriving DecidableEq, Repr

/-- An MSI-X table entry (R436, R452). -/
structure MsixEntry where
  vec : Nat
  addr : Nat
  data : Nat
  ctl : Nat
  deriving DecidableEq, Repr

/-- Status of a command register that reports RESULT and TAG (R94, R121, R139, R379, R461). -/
structure CmdSts where
  busy : Bool
  until_ : Nat  -- tick at which BUSY clears
  dropped : Bool
  result : Nat
  tag : Nat
  a : Nat       -- stream, route, job or queue state, as the register has it
  b : Nat       -- engine, check, state or device count
  deriving DecidableEq, Repr

def CmdSts.zero : CmdSts := { busy := false, until_ := 0, dropped := false, result := 0, tag := 0, a := 0, b := 0 }

/-- The command registers of a function (R93, R120, R138, R379, R461). -/
inductive CmdPort where
  | stream | clip | route | ctx | queue
  deriving DecidableEq, Repr

/-- The status bits that a W1C write clears and an event sets (R13). `bit` counts from 0 in the flags of a core. -/
inductive W1cBit where
  | resetRefused | refLost | woke | leak | charterDropped | secDropped
  | dropped (f : Nat) (p : CmdPort)
  | hw1 (depot : Nat) | hw2 (depot : Nat)
  | missed | lateStart | marginLow
  | arith (core bit : Nat) | window (core bit : Nat)
  deriving DecidableEq, Repr

/-- A normalisation set (R140). -/
structure NormSet where
  ch : List Nat       -- PRE_NORM of channels 0 to 2
  pad : Nat           -- PRE_NORM_PAD
  deriving DecidableEq, Repr

def NormSet.reset : NormSet := { ch := [0x3E800000, 0x3E800000, 0x3E800000], pad := 0 }

/-- A function with its own copy of every register it sees (R92, R119, R137, R241, R314, R377, R433, R458, R518). -/
structure Fn where
  id : Nat
  present : Bool
  mse : Bool
  bme : Bool
  d3 : Bool
  msix : List MsixEntry      -- entries that differ from a masked entry of zeros
  pba : List Nat
  qdBase : Nat
  eventVec : Nat
  apertures : List Nat
  errLog : List Nat
  errRead : Option Half      -- the half of its oldest entry that has been read (R11)
  errOverflow : Bool
  bar2Denied : Nat
  doorbellErrors : Nat
  fetchErrors : Nat
  queueSts : CmdSts
  streamSts : CmdSts
  heavy : List HeavyNote
  heavyRead : Option Half    -- as errRead, of the oldest notice
  heavyOverflow : Bool
  vdecBase : Nat
  vdecCnt : List Nat         -- PICTURES, ABANDONED, CONCEALED, REFUSED, SKIPPED, DEADLINE_MISS, CACHE_EVICT
  clipSts : CmdSts
  vencBase : Nat
  vencCnt : List Nat         -- CODED, CLIPPED, QP_OVERRIDE, STALL_END
  routeSts : CmdSts
  preBase : Nat
  preCnt : List Nat          -- TENSORS, INVALID, BATCHED
  norm : List NormSet
  cruCnt : List Nat          -- TASKS, BOXES, BAD_BOXES, OUTSIDE
  zoneSel : Nat
  zoneData : List Byte       -- the latched entry, 16 bytes as R306 lays it out
  trkCnt : List Nat          -- PICTURES, DEFERRED, DROPPED, REID_JOBS
  ctxSts : CmdSts
  dspCnt : List Nat          -- STARTED, COMPLETED, PREEMPTED, FAULTED, FLR_DISCARD
  scratch : Nat
  overflow : List OvRec
  stopped : List Nat         -- jobs becalmed because Bus Master Enable was cleared (R374)
  deriving DecidableEq, Repr

def Fn.reset (id : Nat) : Fn :=
  { id := id, present := id == 0, mse := false, bme := false, d3 := false, msix := [], pba := [],
    qdBase := 0, eventVec := 0xFFFFFFFFFFFF, apertures := [0, 0, 0, 0], errLog := [], errRead := none, errOverflow := false,
    bar2Denied := 0, doorbellErrors := 0, fetchErrors := 0, queueSts := CmdSts.zero, streamSts := CmdSts.zero,
    heavy := [], heavyRead := none, heavyOverflow := false, vdecBase := 0, vdecCnt := [0, 0, 0, 0, 0, 0, 0],
    clipSts := CmdSts.zero, vencBase := 0, vencCnt := [0, 0, 0, 0], routeSts := CmdSts.zero, preBase := 0,
    preCnt := [0, 0, 0], norm := List.replicate 16 NormSet.reset, cruCnt := [0, 0, 0, 0], zoneSel := 0,
    zoneData := zeros 16, trkCnt := [0, 0, 0, 0], ctxSts := CmdSts.zero, dspCnt := [0, 0, 0, 0, 0], scratch := 0,
    overflow := [], stopped := [] }

/-- A command register of a function. -/
def Fn.cmd (x : Fn) : CmdPort → CmdSts
  | .stream => x.streamSts
  | .clip => x.clipSts
  | .route => x.routeSts
  | .ctx => x.ctxSts
  | .queue => x.queueSts

/-- The function with a command register changed. -/
def Fn.modCmd (x : Fn) (p : CmdPort) (g : CmdSts → CmdSts) : Fn :=
  match p with
  | .stream => { x with streamSts := g x.streamSts }
  | .clip => { x with clipSts := g x.clipSts }
  | .route => { x with routeSts := g x.routeSts }
  | .ctx => { x with ctxSts := g x.ctxSts }
  | .queue => { x with queueSts := g x.queueSts }

/-- BUSY at a tick. -/
def CmdSts.busyAt (c : CmdSts) (now : Nat) : Bool := c.busy || decide (now < c.until_)

/-- The endpoint's link (R429 to R431, R455, R459), the fetch order (R447) and the translation cache (R453, R454). -/
structure Link where
  speed : Nat
  width : Nat
  l0pLanes : Nat
  flit : Bool
  degraded : Bool
  ltssm : Nat
  powerCtl : Nat
  lastFn : Nat              -- the function fetched for last
  credits : List (Nat × Nat)  -- SQ, fetches left in its round
  ats : List (Nat × Nat)    -- function, untranslated page of each cached translation
  deriving DecidableEq, Repr

/-- What leaves the block, in order (R430). The model's own log. -/
inductive BusOut where
  | write (fn addr : Nat) (data : List Byte)
  | msix (fn vec : Nat)
  | data (fn : Nat) (bytes : List Byte)
  | unsupported (fn : Nat)
  | abort (fn : Nat)
  | invalidated (fn tag : Nat)
  | requestL1
  | doe (bytes : List Byte)
  | frame (bytes : List Byte)
  | thermtrip (asserted : Bool)
  | musterOut
  deriving DecidableEq, Repr

/-! ### Leeward domain, clocks, pins -/

/-- The states of the device (R467). -/
inductive DevState where
  | off | active | draining | leeward | waking
  deriving DecidableEq, Repr

/-- An activity filter that differs from its reset values (R471, R484). -/
structure Filter where
  ix : Nat
  cfg : Nat          -- LWD_FILTER
  bounds : Nat       -- LWD_FILTER_BOUNDS
  avg : Nat
  hits : Nat
  baseline : Nat     -- current, adapted
  last : Nat         -- timestamp of the last notice
  deriving DecidableEq, Repr

/-- The leeward domain (R465 to R485, R522). -/
structure Lwd where
  st : DevState
  ms : Nat
  lk : Nat
  phase : Nat              -- hundred-millionths of the lk under way (R465)
  result : Nat
  tag : Nat
  cause : Nat
  woke : Bool
  tripped : Bool
  wakeFilter : Nat
  wakeLk : Nat             -- leeward count at which the last wake began, in lk (R479)
  wakeAt : Nat
  noticeLo : Nat
  filterSel : Nat
  filters : List Filter
  coolant : Nat
  coolantPolicy : Nat
  leakRun : Nat
  drainAfterWake : Bool
  leakOwed : Bool          -- a LEAK health record ST2 writes after the wake (R477)
  tripOwed : Bool          -- a THERMAL_TRIP record written after the next boot (R502)
  notices : Nat
  ignored : Nat
  asleep : Nat
  boots : Nat
  bootCause : Nat
  deriving DecidableEq, Repr

/-- The CLK page (R473 to R481). -/
structure Clk where
  power : Nat
  level : Nat
  tjMax : Nat
  powerProt : Bool
  thermalProt : Bool
  capUnmet : Bool
  pllLock : Bool
  refLostFlag : Bool
  refPresent : Bool
  policy : Nat
  ovrThermal : Nat
  ovrPower : Nat
  ovrHrd : Nat
  capUnmetCnt : Nat
  gatedNs : Nat
  vssStopped : Bool        -- 105 °C: VSS engines stop at picture boundaries (R475)
  lastPowerRec : Option Nat     -- ticks of the last protection records (R475)
  lastThermalRec : Option Nat
  deriving DecidableEq, Repr

/-- Where the boot stands (R487, R493, R494). -/
inductive BootPhase where
  | held                 -- main domain held in reset
  | booting (cold : Bool) (cause : Nat)
  | done
  | recovery
  | parked               -- a PERST# boot that TRIPPED stops (R487)
  deriving DecidableEq, Repr

/-- Board inputs (R528, R532 to R540). -/
structure Pins where
  leewardRail : Bool
  mainGood : Bool
  undervolt : Bool         -- waits for PWRGOOD_MAIN low and high again (R534)
  resetN : Bool            -- asserted
  perst : Bool             -- asserted
  ethModAbs : Bool
  thermtrip : Bool         -- THERMTRIP_N asserted
  coldPending : Bool       -- the boot held back starts as a cold reset
  pendingCause : Nat
  deriving DecidableEq, Repr

/-! ### Security -/

/-- A fuse key slot (R495). -/
structure KeySlot where
  hash : List Byte
  enabled : Bool
  rev0 : Bool
  rev1 : Bool
  deriving DecidableEq, Repr

/-- The running image (R490, R497). -/
structure Running where
  bank : Nat
  host : Bool
  slot : Nat
  revoke : Nat
  commit : Bool
  seq : Nat
  vers : List Nat
  rollback : Nat
  hash : List Byte
  charterKeys : List (List Byte)
  deriving DecidableEq, Repr

/-- A health record written less than a second ago (R501). -/
structure HealthPair where
  kind : Nat
  unit : Nat
  tick : Nat
  extra : Nat
  deriving DecidableEq, Repr

/-- A command of SEC_CMD in progress with the result it will report (R510). -/
structure SecCmd where
  op : Nat
  tag : Nat
  image : List Byte        -- what UPDATE or RECOVER programs
  result : Nat
  check : Nat
  detail : Nat
  deriving DecidableEq, Repr

/-- Fuses, flash, running image, health records, stewards and the SEC page (R489 to R511). -/
structure Sec where
  slots : List KeySlot
  rollbackMin : Nat
  fused : List (List Nat)      -- bypass rows by core (R151)
  flash : Mem
  running : Option Running
  fallback : Bool
  recovery : Bool
  otherValid : Bool
  cmd : Option SecCmd
  dropped : Bool
  result : Nat
  tag : Nat
  check : Nat
  detail : Nat
  addr : Nat
  len : Nat
  ring : Nat
  seq : Nat
  kept : List (List Byte)
  recent : List (List Byte)    -- the last 256 records, for DUMP
  lost : Nat
  pairs : List HealthPair
  restarts : Nat
  down : List Nat              -- stewards that restart
  spdmWaits : List (SpdmReq × List Byte)   -- requests that wait for ST2 to restart, with their nonces (R507)
  life : List Nat              -- the 16 lifetime counters of R500
  storeSeq : Nat
  storeBank : Nat
  dirty : Bool                 -- the store differs from its snapshot
  bootTick : Nat               -- tick of the last boot, for the power-on hours
  deriving DecidableEq, Repr

/-! ### Audit and muster -/

/-- A waybill entry that waits for its signature (R332). -/
structure SignReq where
  part : Nat
  seq : Nat
  addr : Nat        -- offset of the entry in its ring's owner space
  fn : Nat
  body : List Byte
  deriving DecidableEq, Repr

/-- The DAU's device-wide part (R334 to R344). -/
structure Dau where
  ctl : Nat             -- DAU_MUSTER_CTL
  armTick : Nat         -- tick of the last write of ARM
  lastPulse : Option Nat  -- tick of the last pulse
  missed : Bool
  lateStart : Bool
  marginLow : Bool
  epoch : Nat
  arrival : Nat
  phase : Nat
  startTick : Option Nat     -- S + OFFSET of the current epoch, were the core clock to run on unthrottled
  startCk : Option Nat       -- S + OFFSET on the core clock (R335, R338)
  lastCk : Option Nat        -- the start point before that one, once it had passed
  signSkipped : Nat
  signQueue : List SignReq
  mismatches : Nat
  deriving DecidableEq, Repr

/-! ### Track engine and verdict port -/

/-- A track set (R284). -/
structure TrackSet where
  fn : Nat
  stream : Nat
  slot : Nat
  nextId : Nat
  reidFailed : Bool           -- the next record sets REID_FAILED (R295)
  tracks : List Track
  deriving DecidableEq, Repr

/-- A picture of a route whose outcome waits for the track engine (R288, R296). -/
structure Result where
  fn : Nat
  route : Nat
  slot : Nat
  stream : Nat
  serial : Nat
  codes : List Nat            -- conditions the job adds
  job : Option Nat            -- none where no job ran for the picture
  outBuf : Option Nat
  outAddr : Nat               -- offset of its detections in the partition's space
  outLen : Nat
  waybill : Nat
  hash : List Byte            -- of its waybill; empty where no job ran
  batch : Nat
  actualCk : Nat
  replayCk : Nat
  slipCk : Nat
  arith : Nat
  win : Nat
  deriving DecidableEq, Repr

/-- A re-identification step (R294, R295). -/
structure ReidStep where
  id : Nat
  fn : Nat
  route : Nat
  slot : Nat
  stream : Nat
  serial : Nat
  part : Nat
  tracks : List Nat           -- IDs: updates, then joins, each in creation order (R294)
  task : Option Nat           -- its crop task
  jobs : List Nat             -- sequence-model jobs outstanding
  issued : Nat                -- sequences whose job has been issued
  cropBuf : Option Nat
  cropDig : Nat × Nat         -- input digest of the crop buffer (R328)
  failed : Bool
  deriving DecidableEq, Repr

/-- The track engine and the verdict table (R284 to R306). -/
structure Trk where
  sets : List TrackSet
  results : List Result
  steps : List ReidStep
  stepSeq : Nat
  verdicts : List Verdict
  deriving DecidableEq, Repr

/-- The verdict port (R307 to R319). -/
structure Vpt where
  ctl : Nat
  linkUp : Bool
  fecDegraded : Bool
  mac : List Byte             -- station MAC (R307, R314)
  allow : List (List Byte)    -- source MACs allowed (R354)
  ready : Nat                 -- tick from which the responder answers, after the leeward rail came up (R488)
  held : List Nat             -- ticks at which the unanswered queries leave the responder
  queries : Nat
  dropped : Nat
  bad : Nat
  other : Nat
  worstNs : Nat
  deriving DecidableEq, Repr

end Sys2Proof.Machine
end

