-- ==== Sys2Proof/Machine/State.lean ====
section
/-! DEFINITION. The machine's state: everything the spec gives the TF6800 (`Dev`), the commands that wait (`pending`), the
reasons a step can stop, and the state right after reset. Plain data throughout. -/

namespace Sys2Proof.Machine

/-- The faults of a command: none. The spec names no command on which the device stops; an operand beyond what the device
has reaches nothing (log 1). -/
inductive Fault where
  deriving DecidableEq, Repr

/-- Why the model declines a command. -/
inductive Refusal where
  /-- An instruction without a meaning in this model. Safe. -/
  | notModelled (mnemonic : String)
  /-- An event offered in a state in which the spec's conditions for it do not hold: the hardware does not do it then, so
  there is no next state to give (log 1). Raised by the rows that are the device's own steps, never by a host command.
  Safe: no behaviour is invented. -/
  | eventNotDue (row : String)
  deriving DecidableEq, Repr

/-- All state the spec gives the device. -/
structure Dev where
  ticks : Nat                 -- root-PLL cycles at 5.2 GHz since reset
  run : Nat                   -- those since the last cold reset in which the video clock ran (R70, R92, R466)
  coreRun : Nat               -- core clock since reset in 1/128 ck: 64 - L of 64 ck run at throttle level L (R335, R338, R474)
  free : Nat                  -- free values drawn: the model's own counter (log 2)
  fresh : List W1cBit         -- status bits that an event has set in this root-PLL cycle (R13)
  pins : Pins
  boot : BootPhase
  resetRefused : Bool         -- GLB_STATUS.RESET_REFUSED (R521)
  link : Link
  lwd : Lwd
  clk : Clk
  sec : Sec
  fns : List Fn
  queues : List Queue
  due : List DueRec
  bus : List BusOut           -- what has left the block, oldest first: the model's own log (log 9)
  charter : CharterSt
  parts : List Part
  ctxs : List Ctx
  cores : List Core
  wmk : List Waymark
  depots : List Depot
  mem : Memory
  video : Video
  trk : Trk
  vpt : Vpt
  dau : Dau
  deriving DecidableEq, Repr

/-- The machine. -/
structure State where
  pending : List Instr
  dev : Dev
  deriving DecidableEq, Repr

def Retrain.reset : Retrain := { lull := .none, lastTick := 0, pending := false, nextRefresh := 0 }

def Mc.reset : Mc := { temp := 0, degraded := false, corrected := 0, retried := 0, lost := 0, lastError := 0 }

def Memory.reset : Memory :=
  { hbm := [], open_ := false, lists := [], mcs := List.replicate 8 Mc.reset, spares := [], migration := none,
    migrated := [], repairs := [], failing := [], correctedLines := [], lostReads := [], mirror := [],
    commonRetrain := Retrain.reset, laneBusy := none, laneStart := 0, laneQueue := [] }

def CharterSt.reset : CharterSt :=
  { st := .empty, cur := none, staging := [], busy := none, dropped := false, result := 0, tag := 0, section_ := 0,
    entry := 0 }

def Link.reset : Link :=
  { speed := 0, width := 0, l0pLanes := 0, flit := false, degraded := false, ltssm := 0,
    powerCtl := 64 + 2 * 2 ^ 17, lastFn := 0, credits := [], ats := [] }

def Lwd.reset : Lwd :=
  { st := .active, ms := 0, lk := 0, phase := 0, result := 0, tag := 0, cause := 0, woke := false, tripped := false,
    wakeFilter := 0, wakeLk := 0,
    wakeAt := 0, noticeLo := 0, filterSel := 0, filters := [], coolant := 0, coolantPolicy := 200 + 2 ^ 12, leakRun := 0,
    drainAfterWake := false, leakOwed := false, tripOwed := false, notices := 0, ignored := 0, asleep := 0, boots := 0,
    bootCause := 0 }

def Clk.reset : Clk :=
  { power := 0, level := 0, tjMax := 0, powerProt := false, thermalProt := false, capUnmet := false, pllLock := false,
    refLostFlag := false, refPresent := true, policy := 1150 + 64 * 2 ^ 16 + 95 * 2 ^ 24, ovrThermal := 0, ovrPower := 0,
    ovrHrd := 0, capUnmetCnt := 0, gatedNs := 0, vssStopped := false, lastPowerRec := none, lastThermalRec := none }

/-- A running board (log 5): both rails up, power good, no reset pin asserted, no module in the verdict port's cage. -/
def Pins.reset : Pins :=
  { leewardRail := true, mainGood := true, undervolt := false, resetN := false, perst := false, ethModAbs := true,
    thermtrip := false, coldPending := true, pendingCause := 0 }

def KeySlot.blank : KeySlot := { hash := zeros 48, enabled := false, rev0 := false, rev1 := false }

/-- Fuses and flash as a part that has never been programmed (log 6). -/
def Sec.reset : Sec :=
  { slots := List.replicate 4 KeySlot.blank, rollbackMin := 0, fused := List.replicate 6 [], flash := [],
    running := none, fallback := false, recovery := false, otherValid := false, cmd := none, dropped := false,
    result := 0, tag := 0, check := 0, detail := 0, addr := 0, len := 0, ring := 0, seq := 0, kept := [],
    recent := [], lost := 0, pairs := [], restarts := 0, down := [], spdmWaits := [], life := List.replicate 16 0, storeSeq := 0,
    storeBank := 0, dirty := false, bootTick := 0 }

def Dau.reset : Dau :=
  { ctl := 8 + 26000 * 2 ^ 8, armTick := 0, lastPulse := none, missed := false, lateStart := false,
    marginLow := false, epoch := 0, arrival := 0, phase := 0, startTick := none, startCk := none, lastCk := none,
    signSkipped := 0,
    signQueue := [], mismatches := 0 }

def Trk.reset : Trk := { sets := [], results := [], steps := [], stepSeq := 0, verdicts := [] }

def Vpt.reset : Vpt :=
  { ctl := 0, linkUp := false, fecDegraded := false, mac := zeros 6, allow := [], ready := 0, held := [], queries := 0,
    dropped := 0, bad := 0, other := 0,
    worstNs := 0 }

/-- The device at cold reset: the boot of R493 is under way (log 5). -/
def Dev.reset : Dev :=
  { ticks := 0, run := 0, coreRun := 0, free := 0, fresh := [], pins := Pins.reset, boot := .booting true 0,
    resetRefused := false, link := Link.reset, lwd := Lwd.reset,
    clk := Clk.reset, sec := Sec.reset, fns := (upTo 7).map Fn.reset, queues := [], due := [], bus := [],
    charter := CharterSt.reset, parts := (upTo 6).map Part.reset, ctxs := [],
    cores := List.replicate 6 Core.reset, wmk := [], depots := [],
    mem := Memory.reset, video := Video.reset, trk := Trk.reset, vpt := Vpt.reset, dau := Dau.reset }

/-- The machine right after reset. -/
def State.reset : State := { pending := [], dev := Dev.reset }

end Sys2Proof.Machine
end

