-- ==== Sys2Proof/Machine/Ops.lean ====
section
/-! DEFINITION. The named operations every meaning is written with: outcomes, the lift from the device to the machine,
free values, the passing of one root-PLL cycle, and the lookups over the device's lists. -/

namespace Sys2Proof.Machine

/-- What a step answers. -/
abbrev Ans := Host.Outcome State Fault Refusal

/-- The machine with another device state; its queue stays. -/
def State.withDev (s : State) (d : Dev) : State := { s with dev := d }

/-- An event of the device: it comes about where it is due, and is declined by name elsewhere (log 1). -/
def whenDue (row : String) (due : Bool) (s : State) (f : Dev → Dev) : Ans :=
  if due then Host.Outcome.next (s.withDev (f s.dev)) else Host.Outcome.refused (.eventNotDue row)

/-- A host command: it always completes. -/
def always (s : State) (f : Dev → Dev) : Ans := Host.Outcome.next (s.withDev (f s.dev))

/-- The next free value, and the device with one more drawn (log 2). -/
def drawFree (d : Dev) : Nat × Dev := ((Config.freeValue d.free).toNat, { d with free := d.free + 1 })

/-- One lk in the unit of `Lwd.phase`. -/
def lkUnits : Nat := 100000000

/-- What the leeward oscillator advances in root-PLL cycle `n`: a hundredth of an lk at 52 MHz, within ±1 % of it (R8,
R465). -/
def leewardStep (n : Nat) : Nat := 990000 + Config.leewardRate n % 20001

/-- The leeward count carried on by `step` hundred-millionths of an lk (R465). -/
def Lwd.advance (l : Lwd) (step : Nat) : Lwd :=
  let n := (l.phase + step) / lkUnits
  { l with ms := (l.ms + (l.lk + n) / 52000) % 2 ^ 64, lk := (l.lk + n) % 52000, phase := (l.phase + step) % lkUnits }

/-- The root PLL and the main clocks run: powered, out of reset (R464). -/
def Dev.clocked (d : Dev) : Bool := d.boot != .held && (d.lwd.st == .active || d.lwd.st == .draining)

/-- A video engine, a scale-and-tensorise unit or a crop unit works on something: its clock stops at its boundary only
(R466). -/
def Dev.videoBusy (d : Dev) : Bool :=
  d.video.vdec.any (·.job.isSome) || d.video.venc.any (·.job.isSome) || d.video.passes.any (·.unit.isSome) ||
  d.video.cropTasks.any (·.running)

/-- One root-PLL cycle passes (R8): the main clocks run as R464, R466 and R474 say, and the leeward count while its rail is
up (R465). -/
def tick (d : Dev) : Dev :=
  { d with
    ticks := d.ticks + 1
    fresh := []
    run := if d.clocked && (d.clk.refPresent || d.videoBusy) then d.run + 1 else d.run
    coreRun := if d.clocked && d.clk.refPresent then d.coreRun + (64 - d.clk.level) else d.coreRun
    lwd := if d.pins.leewardRail then d.lwd.advance (leewardStep d.ticks) else d.lwd }

/-! ### Wall time in root-PLL cycles (R8) -/

/-- Ticks of one vk. -/
def vkTicks : Nat := 5
/-- Ticks of one sk, the steward clock. -/
def skTicks : Nat := 10
/-- Ticks of one ck. -/
def ckTicks : Nat := 2
/-- Ticks of one mk. -/
def mkTicks : Nat := 4
/-- Ticks of a microsecond. -/
def usTicks : Nat := 5200
/-- Ticks of a millisecond. -/
def msTicks : Nat := 5200000
/-- Ticks of a second. -/
def secTicks : Nat := 5200000000

/-- VDEC_TIME: vk since cold reset (R70, R92). -/
def vkNow (d : Dev) : Nat := d.run / vkTicks

/-- One ck in the unit of `Dev.coreRun`. -/
def ckUnits : Nat := 128

/-! ### Status bits (R13) -/

/-- An event sets a status bit in this cycle. -/
def Dev.fire (d : Dev) (b : W1cBit) : Dev := { d with fresh := b :: d.fresh }

/-- Events set status bits of a list. -/
def Dev.fireAll (d : Dev) (bs : List W1cBit) : Dev := { d with fresh := bs ++ d.fresh }

/-! ### Lookups -/

/-- Function `f`. -/
def Dev.fn (d : Dev) (f : Nat) : Fn := (d.fns[f]?).getD (Fn.reset f)
/-- The device with function `f` changed. -/
def Dev.modFn (d : Dev) (f : Nat) (g : Fn → Fn) : Dev := { d with fns := modAt g f d.fns }
/-- Core `c`. -/
def Dev.core (d : Dev) (c : Nat) : Core := (d.cores[c]?).getD Core.reset
/-- The device with core `c` changed. -/
def Dev.modCore (d : Dev) (c : Nat) (g : Core → Core) : Dev := { d with cores := modAt g c d.cores }
/-- Partition `p`, where the charter defines it. -/
def Dev.part? (d : Dev) (p : Nat) : Option Part := d.parts.find? fun x => x.defined && x.id == p
/-- The device with partition `p` changed. -/
def Dev.modPart (d : Dev) (p : Nat) (g : Part → Part) : Dev := { d with parts := modIf (·.id == p) g d.parts }
/-- The context of a job. -/
def Dev.ctx? (d : Dev) (j : Nat) : Option Ctx := d.ctxs.find? (·.entry.id == j)
/-- The device with the context of a job changed. -/
def Dev.modCtx (d : Dev) (j : Nat) (g : Ctx → Ctx) : Dev := { d with ctxs := modIf (·.entry.id == j) g d.ctxs }
/-- Depot `i`, where the charter defines it. -/
def Dev.depot? (d : Dev) (i : Nat) : Option Depot := d.depots.find? (·.id == i)
/-- The device with depot `i` changed. -/
def Dev.modDepot (d : Dev) (i : Nat) (g : Depot → Depot) : Dev := { d with depots := modIf (·.id == i) g d.depots }
/-- Queue `q`, where it has been enabled since the charter was sealed. -/
def Dev.queue? (d : Dev) (q : Nat) : Option Queue := d.queues.find? (·.id == q)
/-- The device with queue `q` changed. -/
def Dev.modQueue (d : Dev) (q : Nat) (g : Queue → Queue) : Dev := { d with queues := modIf (·.id == q) g d.queues }
/-- Stream `n`, where it is open or closing. -/
def Dev.stream? (d : Dev) (n : Nat) : Option Stream := d.video.streams.find? (·.id == n)
/-- The device with its video subsystem changed. -/
def Dev.modVideo (d : Dev) (g : Video → Video) : Dev := { d with video := g d.video }
/-- The device with stream `n` changed. -/
def Dev.modStream (d : Dev) (n : Nat) (g : Stream → Stream) : Dev :=
  d.modVideo fun v => { v with streams := modIf (·.id == n) g v.streams }
/-- Route `r`, where it is bound. -/
def Dev.route? (d : Dev) (r : Nat) : Option Route := d.video.routes.find? fun x => x.bound && x.id == r
/-- The descriptor of route `r` as last bound; pictures in flight keep it through an UNBIND (log 17). -/
def Dev.routeDesc (d : Dev) (r : Nat) : List Byte := ((d.video.routes.find? (·.id == r)).map (·.desc)).getD []
/-- What a function owns by the sealed charter. -/
def Dev.funcCfg? (d : Dev) (f : Nat) : Option FuncCfg :=
  if d.charter.st = .sealed then d.charter.cur.bind fun c => c.funcs.find? (·.fn == f) else none
/-- The charter is SEALED. -/
def Dev.sealed (d : Dev) : Bool := d.charter.st == .sealed
/-- The main domain is up and its rows run: booted, in Active or Draining (R464). -/
def Dev.mainUp (d : Dev) : Bool := d.boot == .done && (d.lwd.st == .active || d.lwd.st == .draining)

/-- BUSY of a command register clears at a free time within `us` microseconds (R94, R121, R139, R379, R461). -/
def Dev.busyFor (d : Dev) (f : Nat) (p : CmdPort) (us n : Nat) : Dev :=
  d.modFn f fun x => x.modCmd p fun c =>
    { c with until_ := d.ticks + (Config.freeValue n).toNat % (us * usTicks + 1) }

/-- A command register takes a command, or drops it while BUSY. -/
def Dev.takeCmd (d : Dev) (f : Nat) (p : CmdPort) (us : Nat) (k : Dev → Dev) : Dev :=
  if ((d.fn f).cmd p).busyAt d.ticks then
    (d.modFn f fun x => x.modCmd p fun c => { c with dropped := true }).fire (.dropped f p)
  else (k { d with free := d.free + 1 }).busyFor f p us d.free

/-- The link leaves L1 for L0 (R455). -/
def Link.leaveL1 (l : Link) : Link := if 4 ≤ l.ltssm ∧ l.ltssm ≤ 6 then { l with ltssm := 2 } else l

/-- A request of the device ends L1, and widens a link that L0p has narrowed (R455). -/
def Link.request (l : Link) : Link := if 3 ≤ l.ltssm ∧ l.ltssm ≤ 6 then { l with ltssm := 2, l0pLanes := l.width } else l

/-- What the link does to carry something. -/
def Link.carry (l : Link) : BusOut → Link
  | .write _ _ _ => l.request
  | .msix _ _ => l.request
  | .data _ _ => l.leaveL1
  | .unsupported _ => l.leaveL1
  | .abort _ => l.leaveL1
  | .invalidated _ _ => l.leaveL1
  | .doe _ => l.leaveL1
  | .requestL1 => l
  | .frame _ => l
  | .thermtrip _ => l
  | .musterOut => l

/-- Something leaves the block. -/
def Dev.emit (d : Dev) (o : BusOut) : Dev := { d with bus := d.bus ++ [o], link := d.link.carry o }

/-- A TLP of the host arrives: the link carries it in L0. -/
def Dev.wakeLink (d : Dev) : Dev := { d with link := d.link.leaveL1 }

/-- A counter of a list saturates at 64 bits (R14). -/
def bump (i k : Nat) (l : List Nat) : List Nat := modAt (fun n => satAdd 64 n k) i l

end Sys2Proof.Machine
end

