-- ==== Sys2Proof/Machine/Hbm.lean ====
section
/-! DEFINITION. Access to HBM: owners' address spaces and their interleave (R349, R407, R408), the functions' common grants
(R351), the mirrors of the function tables (R422), and the depots' buffers (R383). -/

namespace Sys2Proof.Machine

/-- Bytes of a pseudo-channel: 1.125 GiB (R404). -/
def pcSize : Nat := 1207959552

/-- Owner number of the common pool. -/
def commonOwner : Nat := 7

/-- The interleave list of an owner: its pseudo-channels in ascending index, as switched by migrations (R408, R425). -/
def Dev.pcs (d : Dev) (o : Nat) : List Nat := ((d.mem.lists.find? (·.1 == o)).map (·.2)).getD []

/-- The pseudo-channel and the address within it of byte `a` of a space over the list `l` (R408). -/
def interleave (l : List Nat) (a : Nat) : Nat × Nat :=
  let p := l.length
  let u := a / 256
  ((l[u % p]?).getD 0, u / p * 256 + a % 256)

/-- Bank, row and column of an address within a pseudo-channel (R408). -/
def bankOf (x : Nat) : Nat × Nat × Nat := (x / 1024 % 48, x / 1024 / 48, x % 1024)

/-- The HBM key of byte `a` of an owner's space. -/
def hbmKey (l : List Nat) (a : Nat) : Nat :=
  let i := interleave l a
  i.1 * pcSize + i.2

/-- Bytes of an owner's space (R408). -/
def Dev.spaceLen (d : Dev) (o : Nat) : Nat := (d.pcs o).length * pcSize

/-- `n` bytes of an owner's space from `a`; bytes past the space read as 0. -/
def Dev.ownerRead (d : Dev) (o a : Nat) : Nat → List Byte
  | 0 => []
  | n + 1 => (if a < d.spaceLen o then memRead d.mem.hbm (hbmKey (d.pcs o) a) else 0) :: d.ownerRead o (a + 1) n

/-- HBM with bytes written to an owner's space from `a`; bytes past the space are not written. -/
def hbmPut (l : List Nat) (a : Nat) : List Byte → Mem → Mem
  | [], m => m
  | b :: bs, m => hbmPut l (a + 1) bs (if a < l.length * pcSize then memWrite m (hbmKey l a) b else m)

/-- The device with bytes written to an owner's space. -/
def Dev.ownerWrite (d : Dev) (o a : Nat) (bs : List Byte) : Dev :=
  { d with mem := { d.mem with hbm := hbmPut (d.pcs o) a bs d.mem.hbm } }

/-- Where the COMMON grant of function `f` starts in the common pool: the grants lie in the order of the FUNCTIONS section
(log 12). -/
def commonStart : List FuncCfg → Nat → Nat
  | [], _ => 0
  | c :: cs, f => if c.fn = f then 0 else c.commonMib * 2 ^ 20 + commonStart cs f

/-- Start and length of the COMMON grant of a function; length 0 where it has none. -/
def Dev.commonGrant (d : Dev) (f : Nat) : Nat × Nat :=
  match d.charter.cur, d.funcCfg? f with
  | some c, some g => (commonStart c.funcs f, g.commonMib * 2 ^ 20)
  | _, _ => (0, 0)

/-- Bytes of a span that lie inside a length: the span is inside where it ends at or before it. -/
def inSpan (len off n : Nat) : Bool := off + n ≤ len

/-- `n` bytes of a function's COMMON grant; bytes outside the grant read as 0. -/
def Dev.commonRead (d : Dev) (f off n : Nat) : List Byte :=
  let g := d.commonGrant f
  let k := min n (g.2 - off)
  d.ownerRead commonOwner (g.1 + off) k ++ zeros (n - k)

/-- The four function tables of R422 in order: offset in the COMMON grant and largest extent. -/
def Dev.tables (d : Dev) (f : Nat) : List (Nat × Nat) :=
  match d.funcCfg? f with
  | some g =>
    let x := d.fn f
    [(x.qdBase, 64 * g.queueCount), (x.vdecBase, 128 * g.streamCount), (x.vencBase, 65536),
      (x.preBase, 128 * g.routeCount)]
  | none => []

/-- The mirror key of a table byte. -/
def mirrorKey (f t o : Nat) : Nat := (f * 4 + t) * 2 ^ 32 + o

/-- A write into a table's extent goes to its mirror too (R422). -/
def mirrorWrites (f off : Nat) (bs : List Byte) : Nat → List (Nat × Nat) → Mem → Mem
  | _, [], m => m
  | t, (b, len) :: ts, m =>
    mirrorWrites f off bs (t + 1) ts
      ((List.zip (upTo bs.length) bs).foldl (fun m p =>
        if b ≤ off + p.1 ∧ off + p.1 < b + len then memWrite m (mirrorKey f t (off + p.1 - b)) p.2 else m) m)

/-- The device with bytes written to a function's COMMON grant; bytes outside the grant are not written. -/
def Dev.commonWrite (d : Dev) (f off : Nat) (bs : List Byte) : Dev :=
  let g := d.commonGrant f
  let bs := bs.take (g.2 - off)
  let d := d.ownerWrite commonOwner (g.1 + off) bs
  { d with mem := { d.mem with mirror := mirrorWrites f off bs 0 (d.tables f) d.mem.mirror } }

/-- The base of table `t` moves to `base`: its contents are copied into the mirror (R422). -/
def Dev.moveTable (d : Dev) (f t base : Nat) (set : Fn → Fn) : Dev :=
  let d := d.modFn f set
  match (d.tables f)[t]? with
  | some (_, len) =>
    let src := memSlice d.mem.hbm 0 (256 * pcSize)
    let g := d.commonGrant f
    let l := d.pcs commonOwner
    let cleared := memClear d.mem.mirror (mirrorKey f t 0) (mirrorKey f t 0 + 2 ^ 32)
    -- only listed cells can differ from 0
    let m := src.foldl (fun m c =>
      let pc := c.1 / pcSize
      let x := c.1 % pcSize
      match l.findIdx? (· == pc) with
      | some i =>
        let a := (x / 256 * l.length + i) * 256 + x % 256
        if g.1 + base ≤ a ∧ a < g.1 + base + len ∧ a < g.1 + g.2 then
          memWrite m (mirrorKey f t (a - g.1 - base)) c.2 else m
      | none => m) cleared
    { d with mem := { d.mem with mirror := m } }
  | none => d

/-- The HBM key space of the depots of the common pool (VIDEO, ENCODE, OVERFLOW): no bank mapping of theirs is stated, so
their bytes lie beyond the pseudo-channels' keys (log 12). -/
def depotSpace (id off : Nat) : Nat := 256 * pcSize + id * 2 ^ 50 + off

/-- A depot of a partition (kinds 1 to 3), and its partition (R382). -/
def depotPart (id : Nat) : Option Nat := if 0x10 ≤ id ∧ id < 0x36 ∧ id % 16 < 6 then some (id % 16) else none

/-- `n` bytes at offset `off` of buffer `ix` of a depot. -/
def Dev.bufRead (d : Dev) (dep : Depot) (ix off n : Nat) : List Byte :=
  let a := dep.base + ix * (dep.bufKib * 1024) + off
  match depotPart dep.id with
  | some p => d.ownerRead p a n
  | none => memBytes d.mem.hbm (depotSpace dep.id (ix * (dep.bufKib * 1024) + off)) n

/-- The device with bytes written at offset `off` of buffer `ix` of a depot. -/
def Dev.bufWrite (d : Dev) (dep : Depot) (ix off : Nat) (bs : List Byte) : Dev :=
  let a := dep.base + ix * (dep.bufKib * 1024) + off
  match depotPart dep.id with
  | some p => d.ownerWrite p a bs
  | none =>
    { d with mem := { d.mem with
        hbm := memWriteBytes d.mem.hbm (depotSpace dep.id (ix * (dep.bufKib * 1024) + off)) bs } }

/-- `n` bytes of a partition's granted HBM (R349); bytes above it read as 0. -/
def Dev.partRead (d : Dev) (p : Part) (a n : Nat) : List Byte :=
  let k := min n (p.granted - a)
  d.ownerRead p.id a k ++ zeros (n - k)

end Sys2Proof.Machine
end

