-- ==== Sys2Proof/Machine/Post.lean ====
section
/-! DEFINITION. What the device writes outward and into rings: posted writes, interrupts (R451, R452), error logs (R456,
R463), health records (R501, R502), fault and slip records (R370, R52), and how it takes host accesses (R437, R469,
R494). -/

namespace Sys2Proof.Machine

/-- MSI-X vectors of a function (R451). -/
def vecCount (f : Nat) : Nat := if f = 0 then 2048 else 64

/-- A function may issue requests: it exists, its Bus Master Enable is set and it is in D0 (R374, R433, R435), and the main
domain runs. -/
def Dev.mayRequest (d : Dev) (f : Nat) : Bool :=
  let x := d.fn f
  x.present && x.bme && !x.d3

/-- The MSI-X entry of a vector; entries are masked and zero until the host writes them. -/
def Fn.entry (x : Fn) (v : Nat) : MsixEntry :=
  (x.msix.find? (·.vec == v)).getD { vec := v, addr := 0, data := 0, ctl := 1 }

/-- Vector `v` of function `f` is raised: a message, or a pending bit while it is masked or requests are stopped (R452). -/
def Dev.raiseVec (d : Dev) (f v : Nat) : Dev :=
  if vecCount f ≤ v ∨ !(d.fn f).present then d
  else if bitAt ((d.fn f).entry v).ctl 0 || !d.mayRequest f then
    d.modFn f fun x => { x with pba := if x.pba.contains v then x.pba else x.pba ++ [v] }
  else d.emit (.msix f v)

/-- The pending messages of a function that are not masked are sent (R452). -/
def Dev.flushPending (d : Dev) (f : Nat) : Dev :=
  let x := d.fn f
  let go := x.pba.filter fun v => !bitAt (x.entry v).ctl 0
  let d := d.modFn f fun x => { x with pba := x.pba.filter fun v => !go.contains v }
  go.foldl (fun d v => d.emit (.msix f v)) d

/-- The event vectors of HIF_EVENT_VEC in order: decode, depot, fault, health (R462). -/
def Dev.raiseEvent (d : Dev) (f k : Nat) : Dev := d.raiseVec f (bits (d.fn f).eventVec (12 * k) 12)

/-- An error of a function: kind, queue, detail (R463). -/
def Dev.logError (d : Dev) (f kind queue detail : Nat) : Dev :=
  d.modFn f fun x =>
    if 64 ≤ x.errLog.length then { x with errOverflow := true }
    else { x with errLog := x.errLog ++ [kind + queue % 2 ^ 20 * 2 ^ 8 + detail % 2 ^ 30 * 2 ^ 32] }

/-- A posted write of a function (R430). -/
def Dev.post (d : Dev) (f addr : Nat) (bs : List Byte) : Dev := d.emit (.write f addr bs)

/-! ### Read-cleared logs (R10, R11) -/

/-- What a 32-bit read of one half has left of an entry's word. -/
def leftOf (r : Option Half) (w : Nat) : Nat :=
  match r with
  | some .low => w / 2 ^ 32 * 2 ^ 32
  | some .high => w % 2 ^ 32
  | _ => w

/-- The halves of the oldest entry that stand read after a read of `h`; none where all of it has been, so that it goes. -/
def readBoth (r : Option Half) (h : Half) : Option Half :=
  match r, h with
  | none, .low => some .low
  | none, .high => some .high
  | some .low, .low => some .low
  | some .high, .high => some .high
  | _, _ => none

/-! ### Rings in HBM -/

/-- BASE and LOG2 of a ring register (R341, R381, R511). -/
def ringBase (r : Nat) : Nat := bits r 10 38 * 1024
def ringLog2 (r : Nat) : Nat := bits r 48 5

/-- The slot offset of record `seq` in a ring of records of `size` bytes; none where the register describes no ring
inside `len` bytes (R377, R381). -/
def ringSlot (r lo hi size len seq : Nat) : Option Nat :=
  if lo ≤ ringLog2 r ∧ ringLog2 r ≤ hi ∧ ringBase r + 2 ^ ringLog2 r * size ≤ len then
    some (ringBase r + seq % 2 ^ ringLog2 r * size)
  else none

/-- A fault record of partition `p` with everything but SEQ, written to its ring; the fault vector is raised (R370). -/
def Dev.writeFault (d : Dev) (p : Nat) (head tail : List Byte) : Dev :=
  match d.part? p with
  | none => d
  | some x =>
    let d := match ringSlot x.faultRing 4 16 64 x.granted x.faultSeq with
      | some a =>
        let d := d.ownerWrite p a (head ++ le 4 x.faultSeq ++ tail)
        d.modPart p fun q => { q with
          faultWrites := q.faultWrites + 1
          overwrite := if 2 ^ ringLog2 x.faultRing ≤ x.faultWrites then satAdd 64 q.overwrite 1 else q.overwrite }
      | none => d
    let d := d.modPart p fun q => { q with faultSeq := (q.faultSeq + 1) % 2 ^ 32 }
    d.raiseEvent x.owner 2

/-! ### Health records -/

/-- A health record's bytes (R501). -/
def healthBytes (seq kind sev count ms unit job : Nat) (detail : List Nat) : List Byte :=
  le 4 seq ++ le 1 kind ++ le 1 sev ++ le 2 (min count 65535) ++ le 8 ms ++ le 4 unit ++ le 4 job ++
  fit 32 (detail.flatMap (le 4)) ++ zeros 8

/-- A record put into the health ring, if one is set; the health vector is raised (R501, R511). -/
def Dev.healthPut (d : Dev) (bs : List Byte) : Option Dev :=
  if ringBase d.sec.ring = 0 then none
  else
    match ringSlot d.sec.ring 4 16 64 (d.commonGrant 0).2 (at_ bs 0 4) with
    | some a => some ((d.commonWrite 0 a bs).raiseEvent 0 3)
    | none => none

/-- UNIT of a health record: its class and index (R501). -/
def hUnit (cls ix : Nat) : Nat := cls + ix * 256

/-- ST2 writes a health record (R501). -/
def Dev.health (d : Dev) (kind sev unit job : Nat) (detail : List Nat) : Dev :=
  match d.sec.pairs.find? fun p => p.kind == kind && p.unit == unit && d.ticks < p.tick + secTicks with
  | some _ =>
    { d with sec := { d.sec with
        pairs := modIf (fun p => p.kind == kind && p.unit == unit) (fun p => { p with extra := p.extra + 1 }) d.sec.pairs } }
  | none =>
    let old := d.sec.pairs.find? fun p => p.kind == kind && p.unit == unit
    let count := (old.map (·.extra)).getD 0 + 1
    let bs := healthBytes d.sec.seq kind sev count d.lwd.ms unit job detail
    let sec := { d.sec with
      pairs := d.sec.pairs.filter (fun p => !(p.kind == kind && p.unit == unit)) ++
        [{ kind := kind, unit := unit, tick := d.ticks, extra := 0 }] }
    let d := { d with sec := sec }
    match d.healthPut bs with
    | some d =>
      { d with sec := { d.sec with seq := (d.sec.seq + 1) % 2 ^ 32,
                                   recent := (d.sec.recent ++ [bs]).drop (d.sec.recent.length + 1 - 256) } }
    | none =>
      if d.sec.kept.length < 256 then
        { d with sec := { d.sec with seq := (d.sec.seq + 1) % 2 ^ 32, kept := d.sec.kept ++ [bs],
                                     recent := (d.sec.recent ++ [bs]).drop (d.sec.recent.length + 1 - 256) } }
      else { d with sec := { d.sec with lost := satAdd 64 d.sec.lost 1 } }

/-- The kept records are written once a ring is set (R501). -/
def Dev.flushHealth (d : Dev) : Dev :=
  let r := d.sec.kept.foldl (fun (a : Dev × List (List Byte)) bs =>
    match a.1.healthPut bs with
    | some d => (d, a.2)
    | none => (a.1, a.2 ++ [bs])) (d, [])
  { r.1 with sec := { r.1.sec with kept := r.2 } }

/-- A lifetime counter of the health store goes up (R500): power-on hours, cold resets, PERST# boots, thermal trips,
leaks, replay events, reissues, lost reads, waybills signed, in this order. -/
def Dev.life (d : Dev) (i k : Nat) : Dev := { d with sec := { d.sec with life := bump i k d.sec.life } }

/-! ### Host accesses -/

/-- The pages of BAR0 that differ in what serves them (R469, R494). -/
inductive Page where
  | glb | clk | lwd | sec | link | msix | rest
  deriving DecidableEq, Repr

/-- A configuration write of a function: served once firmware is ready (R431, R469). -/
def Dev.config (d0 : Dev) (f : Nat) (k : Dev → Dev) : Dev :=
  let d := d0.wakeLink
  match d.boot with
  | .done | .recovery | .parked => if (d.fn f).present then k d else d
  | _ => d0

/-- Pages served in Leeward and Waking (R469). -/
def Page.asleep : Page → Bool
  | .glb | .clk | .lwd | .link | .msix => true
  | _ => false

/-- The device serves function `f`'s access to a page: what it does otherwise is in `Dev.access`. -/
def Dev.serves (d : Dev) (f : Nat) (p : Page) : Bool :=
  (d.fn f).present && (d.fn f).mse && !(d.fn f).d3 &&
  match d.boot with
  | .held | .booting _ _ => false
  | .recovery => f == 0 && (p == .glb || p == .sec)
  | .parked => p.asleep
  | .done =>
    match d.lwd.st with
    | .active | .draining => true
    | .leeward | .waking => p.asleep
    | .off => false

/-- The device is asleep for host accesses (R469, R487). -/
def Dev.asleep (d : Dev) : Bool :=
  d.boot == .parked || (d.boot == .done && (d.lwd.st == .leeward || d.lwd.st == .waking))

/-- A host write to a register of a page (R437, R469, R494): served, dropped and counted while asleep, an Unsupported
Request with memory space disabled, dropped while no firmware serves it. -/
def Dev.access (d0 : Dev) (f : Nat) (p : Page) (k : Dev → Dev) : Dev :=
  let d := d0.wakeLink
  let x := d.fn f
  if !x.present then d
  else if !x.mse || x.d3 then d.logError f 5 0 0
  else if d.serves f p then k d
  else if d.asleep then { d with lwd := { d.lwd with asleep := satAdd 64 d.lwd.asleep 1 } }
  else d

/-- A host read of `n` bytes: as `access`; a read that is not served returns zeros, or completes with Unsupported Request
where the function does not decode. -/
def Dev.accessRead (d0 : Dev) (f : Nat) (p : Page) (n : Nat) (k : Dev → Dev × List Byte) : Dev :=
  let d := d0.wakeLink
  let x := d.fn f
  if !x.present then d
  else if !x.mse || x.d3 then (d.logError f 5 0 0).emit (.unsupported f)
  else if d.serves f p then
    let r := k d
    r.1.emit (.data f r.2)
  else if d.asleep then
    ({ d with lwd := { d.lwd with asleep := satAdd 64 d.lwd.asleep 1 } } : Dev).emit (.data f (zeros n))
  else if d.boot == .recovery then d.emit (.data f (zeros n))
  else d

/-! ### 64-bit registers written whole or by halves (R11) -/

/-- Bits of a register that a write reaches. -/
def halfMask : Half → Nat
  | .full => 2 ^ 64 - 1
  | .low => 2 ^ 32 - 1
  | .high => (2 ^ 32 - 1) * 2 ^ 32

/-- The 64-bit value a write of `v` presents: a half carries its 32 bits at their place. -/
def halfPlace (h : Half) (v : Nat) : Nat :=
  match h with
  | .full => v % 2 ^ 64
  | .low => v % 2 ^ 32
  | .high => v % 2 ^ 32 * 2 ^ 32

/-- The write reaches a field at bit `lo`. -/
def halfHits (h : Half) (lo : Nat) : Bool :=
  match h with
  | .full => true
  | .low => lo < 32
  | .high => 32 ≤ lo

/-- RW: the bits of `mask` that the write reaches take the new value; the others stay, reserved bits stay 0. -/
def rwWrite (h : Half) (mask old v : Nat) : Nat :=
  let m := mask &&& halfMask h
  (halfPlace h v &&& m) ||| (old &&& (mask - m))

/-- A counter is cleared by writing 0 to it (R14); a half clears its half. -/
def cntWrite (h : Half) (old v : Nat) : Nat :=
  if halfPlace h v = 0 then old &&& (2 ^ 64 - 1 - halfMask h) else old

/-- What a read of a half returns. -/
def halfRead (h : Half) (v : Nat) : List Byte :=
  match h with
  | .full => le 8 v
  | .low => le 4 v
  | .high => le 4 (v / 2 ^ 32)

end Sys2Proof.Machine
end

