-- ==== Sys2Proof/Machine/Sha.lean ====
section
/-! DEFINITION. SHA-384 (FIPS 180-4), HMAC over it, the counter-mode KDF of SP 800-108, and ECDSA on P-384 (FIPS 186-5,
RFC 6979): the standards that R332, R345, R491 and R503 name. -/

namespace Sys2Proof.Machine

/-- Greatest `r` below `2^n` with `r^k ≤ v`, from the top bit down. -/
def rootBits (k v : Nat) : Nat → Nat → Nat
  | 0, r => r
  | n + 1, r => rootBits k v n (if (r + 2 ^ n) ^ k ≤ v then r + 2 ^ n else r)

def isPrime (n : Nat) : Bool := 2 ≤ n && (upTo n).all fun m => m < 2 || n % m != 0

/-- The first 80 primes. -/
def shaPrimes : List Nat := (upTo 410).filter isPrime

/-- The 80 round constants: fractions of cube roots. -/
def shaK : List Nat := shaPrimes.map fun p => rootBits 3 (p * 2 ^ 192) 68 0 % 2 ^ 64

/-- The initial hash of SHA-384: fractions of square roots of the 9th to 16th primes. -/
def sha384Init : List Nat := ((shaPrimes.drop 8).take 8).map fun p => rootBits 2 (p * 2 ^ 128) 68 0 % 2 ^ 64

def rotr64 (x n : Nat) : Nat := (x >>> n ||| x <<< (64 - n)) % 2 ^ 64

def add64 (l : List Nat) : Nat := sum l % 2 ^ 64

/-- The message schedule, newest word first. -/
def shaSchedule : Nat → List Nat → List Nat
  | 0, w => w
  | n + 1, w =>
    let g := fun i => (w[i]?).getD 0
    let s0 := let x := g 14; rotr64 x 1 ^^^ rotr64 x 8 ^^^ (x >>> 7)
    let s1 := let x := g 1; rotr64 x 19 ^^^ rotr64 x 61 ^^^ (x >>> 6)
    shaSchedule n (add64 [g 15, s0, g 6, s1] :: w)

/-- One round. -/
def shaRound (s : List Nat) (kw : Nat × Nat) : List Nat :=
  match s with
  | [a, b, c, d, e, f, g, h] =>
    let s1 := rotr64 e 14 ^^^ rotr64 e 18 ^^^ rotr64 e 41
    let ch := (e &&& f) ^^^ ((2 ^ 64 - 1 - e) &&& g)
    let t1 := add64 [h, s1, ch, kw.1, kw.2]
    let s0 := rotr64 a 28 ^^^ rotr64 a 34 ^^^ rotr64 a 39
    let maj := (a &&& b) ^^^ (a &&& c) ^^^ (b &&& c)
    [add64 [t1, s0, maj], a, b, c, add64 [d, t1], e, f, g]
  | _ => s

def shaBlock (h : List Nat) (block : List Byte) : List Nat :=
  let w := (upTo 16).map fun i => ofBe ((block.drop (8 * i)).take 8)
  let ws := (shaSchedule 64 w.reverse).reverse
  let s := (List.zip shaK ws).foldl shaRound h
  (List.zip h s).map fun p => (p.1 + p.2) % 2 ^ 64

def shaBlocks : Nat → List Byte → List Nat → List Nat
  | 0, _, h => h
  | n + 1, bs, h => shaBlocks n (bs.drop 128) (shaBlock h (bs.take 128))

/-- SHA-384: 48 bytes. -/
def sha384 (m : List Byte) : List Byte :=
  let k := ceilDiv (m.length + 17) 128
  let padded := m ++ [0x80] ++ zeros (k * 128 - m.length - 17) ++ be 16 (8 * m.length)
  ((shaBlocks k padded sha384Init).take 6).flatMap (be 8)

/-- HMAC-SHA-384. -/
def hmac384 (key m : List Byte) : List Byte :=
  let k := fit 128 (if 128 < key.length then sha384 key else key)
  sha384 (k.map (· ^^^ 0x5C) ++ sha384 (k.map (· ^^^ 0x36) ++ m))

/-! ### P-384 -/

def p384 : Nat := 2 ^ 384 - 2 ^ 128 - 2 ^ 96 + 2 ^ 32 - 1
def p384N : Nat := 0xFFFFFFFFFFFFFFFFFFFFFFFFFFFFFFFFFFFFFFFFFFFFFFFFC7634D81F4372DDF581A0DB248B0A77AECEC196ACCC52973
def p384B : Nat := 0xB3312FA7E23EE7E4988E056BE3F82D19181D9C6EFE8141120314088F5013875AC656398D8A2ED19D2A85C8EDD3EC2AEF
def p384G : Nat × Nat :=
  (0xAA87CA22BE8B05378EB1C71EF320AD746E1D3B628BA79B9859F741E082542A385502F25DBF55296C3A545E3872760AB7,
   0x3617DE4A96262C6F5D9E98BF9292DC29F8F41DBD289A147CE9DA3113B5F0B8C00A60B1CE1D7E819D7A431D7C90EA0E5F)

/-- `b^e mod m` over the low `n` bits of `e`, high bit first. -/
def powMod (m b e : Nat) : Nat → Nat → Nat
  | 0, acc => acc
  | n + 1, acc =>
    let sq := acc * acc % m
    powMod m b e n (if bitAt e n then sq * b % m else sq)

/-- The inverse modulo a prime. -/
def invMod (m a : Nat) : Nat := powMod m (a % m) (m - 2) 384 1

/-- Points of the curve; none is the point at infinity. -/
def ecAdd (a b : Option (Nat × Nat)) : Option (Nat × Nat) :=
  match a, b with
  | none, q => q
  | p, none => p
  | some (x1, y1), some (x2, y2) =>
    let out := fun l : Nat =>
      let x := (l * l + 2 * p384 - x1 - x2) % p384
      some (x, (l * ((x1 + p384 - x) % p384) + p384 - y1) % p384)
    if x1 = x2 then
      if (y1 + y2) % p384 = 0 then none
      else out ((3 * x1 * x1 + p384 - 3) * invMod p384 (2 * y1) % p384)
    else out ((y2 + p384 - y1) * invMod p384 ((x2 + p384 - x1) % p384) % p384)

/-- `k P` over the low `n` bits of `k`. -/
def ecMul (k : Nat) (p : Option (Nat × Nat)) : Nat → Option (Nat × Nat) → Option (Nat × Nat)
  | 0, acc => acc
  | n + 1, acc =>
    let d := ecAdd acc acc
    ecMul k p n (if bitAt k n then ecAdd d p else d)

def ecTimes (k : Nat) (p : Option (Nat × Nat)) : Option (Nat × Nat) := ecMul k p 384 none

/-- A valid public point: on the curve, coordinates below p. The curve has prime order, so no further check is needed. -/
def onCurve (x y : Nat) : Bool :=
  x < p384 && y < p384 && (y * y) % p384 == (x * x * x + (p384 - 3) * x + p384B) % p384

/-- ECDSA verification of a signature (r then s, 48 B each, big-endian) over a message, under a 96 B point (R345, R491). -/
def ecdsaOk (key msg sig : List Byte) : Bool :=
  let x := ofBe (key.take 48)
  let y := ofBe ((key.drop 48).take 48)
  let r := ofBe (sig.take 48)
  let s := ofBe ((sig.drop 48).take 48)
  onCurve x y && 1 ≤ r && r < p384N && 1 ≤ s && s < p384N &&
  (let e := ofBe (sha384 msg)
   let w := invMod p384N s
   match ecAdd (ecTimes (e * w % p384N) (some p384G)) (ecTimes (r * w % p384N) (some (x, y))) with
   | some q => q.1 % p384N == r
   | none => false)

/-- The next k of RFC 6979 from (K, V), within the fuel. -/
def rfcK : Nat → List Byte → List Byte → Nat
  | 0, _, _ => 1
  | n + 1, k, v =>
    let v := hmac384 k v
    let c := ofBe v
    if 1 ≤ c ∧ c < p384N then c
    else
      let k := hmac384 k (v ++ [0])
      rfcK n k (hmac384 k v)

/-- An ECDSA signature with the deterministic k of RFC 6979. -/
def ecdsaSign (d : Nat) (msg : List Byte) : List Byte :=
  let h := sha384 msg
  let hb := be 48 (ofBe h % p384N)
  let x := be 48 d
  let v := List.replicate 48 (1 : Byte)
  let k := hmac384 (zeros 48) (v ++ [0] ++ x ++ hb)
  let v := hmac384 k v
  let k := hmac384 k (v ++ [1] ++ x ++ hb)
  let v := hmac384 k v
  let n := rfcK 64 k v
  match ecTimes n (some p384G) with
  | some q =>
    let r := q.1 % p384N
    be 48 r ++ be 48 (invMod p384N n * (ofBe h + r * d) % p384N)
  | none => zeros 96

/-- A public key as 96 bytes, X then Y. -/
def pubBytes (d : Nat) : List Byte :=
  match ecTimes d (some p384G) with
  | some q => be 48 q.1 ++ be 48 q.2
  | none => zeros 96

/-- A private scalar by the counter-mode KDF; a candidate out of range is derived again with the counter advanced
(R503). -/
def kdfScalar (secret label ctx : List Byte) : Nat → Nat → Nat
  | 0, _ => 1
  | n + 1, i =>
    let c := ofBe (hmac384 secret (be 4 i ++ label ++ [0] ++ ctx ++ be 4 384))
    if 1 ≤ c ∧ c < p384N then c else kdfScalar secret label ctx n (i + 1)

end Sys2Proof.Machine
end

