-- ==== Sys2Proof/Machine/Firmware.lean ====
section
/-! DEFINITION. Firmware images and their checks (R489 to R492), the persistent health store (R499, R500), keys and
attestation (R495 to R497, R503, R504). -/

namespace Sys2Proof.Machine

/-- Flash offset of a firmware bank (R489). -/
def bankOff (b : Nat) : Nat := b * 0x1000000

/-- A key slot is revoked when either fuse is blown (R495). -/
def KeySlot.revoked (k : KeySlot) : Bool := k.rev0 || k.rev1

/-- Fields of a bank header (R490). -/
def hdrSeq (h : List Byte) : Nat := at_ h 8 4
def hdrLen (h : List Byte) : Nat := at_ h 0xC 4
def hdrHash (h : List Byte) : List Byte := (h.drop 0x20).take 48

/-- Checks 1 to 5 of an image, in order: the first that fails, 0 where all pass (R491). -/
def Sec.headCheck (s : Sec) (h : List Byte) : Nat :=
  let key := (h.drop 0x50).take 96
  let slot := (s.slots[at_ h 6 1]?).getD KeySlot.blank
  if !(at_ h 0 4 == 0x57464654 && at_ h 4 2 == 1 && hdrLen h % 4096 == 0 && hdrLen h ≤ 6 * 2 ^ 20 &&
      bits (at_ h 7 1) 5 3 == 0 && at_ h 0x1D 3 == 0 && ((h.drop 0xB0).take 80).all (· == 0) &&
      ((h.drop 0x160).take 160).all (· == 0) && at_ h 0x1C 1 ≤ 64) then 1
  else if !(at_ h 6 1 < 4 && slot.enabled && !slot.revoked) then 2
  else if sha384 key != slot.hash then 3
  else if !ecdsaOk key (h.take 0x100) ((h.drop 0x100).take 96) then 4
  else if at_ h 0x1C 1 < s.rollbackMin then 5
  else 0

/-- Check 6 (R491). -/
def bodyOk (h body : List Byte) : Bool := sha384 body == hdrHash h

/-- Checks 1 to 6, and 7 for UPDATE (R491). -/
def Sec.imageCheck (s : Sec) (img : List Byte) (upd : Bool) : Nat :=
  let h := fit 512 img
  let c := s.headCheck h
  if c != 0 then c
  else if 0x1000 + hdrLen h != img.length then 1
  else if !bodyOk h (img.drop 0x1000) then 6
  else if upd && !seqNewer 32 (hdrSeq h) ((s.running.map (·.seq)).getD 0) then 7
  else 0

/-- Header and body of a bank as the flash holds them. -/
def Sec.bankHead (s : Sec) (b : Nat) : List Byte := memBytes s.flash (bankOff b) 512
def Sec.bankBody (s : Sec) (b : Nat) : List Byte :=
  memBytes s.flash (bankOff b + 0x1000) (hdrLen (s.bankHead b))

/-- The running image a header and body make (R490, R497). -/
def mkRunning (b : Nat) (host : Bool) (h body : List Byte) : Running :=
  { bank := b, host := host, slot := at_ h 6 1, revoke := bits (at_ h 7 1) 0 4, commit := bitAt (at_ h 7 1) 4,
    seq := hdrSeq h, vers := (upTo 3).map fun i => at_ h (0x10 + 4 * i) 4, rollback := at_ h 0x1C 1, hash := hdrHash h,
    charterKeys := ((Config.charterKeys body).take 4).map (fit 96) }

/-- The bank the ROM boots, and whether it fell back; none where no bank passes (R492). -/
def Sec.choose (s : Sec) : Option (Nat × Bool) :=
  let ok := fun b => s.headCheck (s.bankHead b) == 0
  let full := fun b => bodyOk (s.bankHead b) (s.bankBody b)
  let cand :=
    if ok 0 && ok 1 then some (if seqNewer 32 (hdrSeq (s.bankHead 1)) (hdrSeq (s.bankHead 0)) then 1 else 0)
    else if ok 0 then some 0
    else if ok 1 then some 1
    else none
  match cand with
  | none => none
  | some b =>
    if full b then some (b, false)
    else if ok (1 - b) && full (1 - b) then some (1 - b, true)
    else none

/-- A bank programmed with an image: header page, then body (R490). -/
def Sec.program (s : Sec) (b : Nat) (img : List Byte) : Sec :=
  { s with flash := memWriteBytes (memClear s.flash (bankOff b) (bankOff b + 0x1000000)) (bankOff b) img }

/-- The fuses blown after a successful boot: slots of the REVOKE mask other than the signer's, and ROLLBACK_MIN (R496). -/
def Sec.blow (s : Sec) (r : Running) : Sec :=
  { s with
    slots := (List.zip (upTo 4) s.slots).map fun p =>
      if bitAt r.revoke p.1 && p.1 != r.slot then { p.2 with rev0 := true, rev1 := true } else p.2
    rollbackMin := if r.commit then max s.rollbackMin r.rollback else s.rollbackMin }

/-! ### Persistent health store -/

/-- Flash offset of a health-store bank (R489). -/
def storeOff (b : Nat) : Nat := 0x2000000 + b * 0x10000

/-- The store's content in the model's own layout (log 13): repair maps, migrations, counters, then row repairs. -/
def storeBytes (maps : List (List Nat)) (mig : List (Nat × Nat)) (life : List Nat) (reps : List RowRepair) : List Byte :=
  ((upTo 6).flatMap fun c =>
    let m := (maps[c]?).getD []
    le 1 ((m[0]?).getD 0xFF) ++ le 1 ((m[1]?).getD 0xFF) ++ zeros 2) ++
  ((upTo 8).flatMap fun i =>
    match mig[i]? with
    | some g => le 2 g.1 ++ le 2 g.2
    | none => le 4 0xFFFFFFFF) ++
  ((upTo 16).flatMap fun i => le 8 ((life[i]?).getD 0)) ++
  reps.flatMap fun r => le 2 r.pc ++ le 1 r.bank ++ le 1 (b2n r.hard) ++ le 4 r.row

def storeMaps (b : List Byte) : List (List Nat) :=
  (upTo 6).map fun c => ((upTo 2).map fun i => at_ b (4 * c + i) 1).filter (· < 34)

def storeMig (b : List Byte) : List (Nat × Nat) :=
  ((upTo 8).map fun i => (at_ b (24 + 4 * i) 2, at_ b (26 + 4 * i) 2)).filter (·.1 != 0xFFFF)

def storeLife (b : List Byte) : List Nat := (upTo 16).map fun i => at_ b (56 + 8 * i) 8

def storeReps (b : List Byte) : List RowRepair :=
  (upTo ((b.length - 184) / 8)).map fun i =>
    let o := 184 + 8 * i
    { pc := at_ b o 2, bank := at_ b (o + 2) 1, row := at_ b (o + 4) 4, hard := at_ b (o + 3) 1 == 1 }

/-- A store bank whose CHECK matches: its SEQUENCE and content (R499). -/
def Sec.storeBankOk (s : Sec) (b : Nat) : Option (Nat × List Byte) :=
  let h := memBytes s.flash (storeOff b) 64
  let body := memBytes s.flash (storeOff b + 4096) (min (at_ h 8 4) 61440)
  if at_ h 0 4 = 0x53484654 ∧ at_ h 0xC 4 = 0 ∧ (h.drop 0x10).take 48 = sha384 body then some (at_ h 4 4, body) else none

/-- The governing bank: the newest that matches, ties to bank A (R499). -/
def Sec.storeGoverns (s : Sec) : Option (Nat × Nat × List Byte) :=
  match s.storeBankOk 0, s.storeBankOk 1 with
  | some a, some b => if seqNewer 32 b.1 a.1 then some (1, b) else some (0, a)
  | some a, none => some (0, a)
  | none, some b => some (1, b)
  | none, none => none

/-- The store written to the older bank (R499, R500). -/
def Dev.storeWrite (d : Dev) : Dev :=
  let s := d.sec
  let hours := (d.ticks - s.bootTick) / (3600 * secTicks)
  let maps := d.cores.map fun c => c.bypass.map (·.1)
  let body := storeBytes maps d.mem.migrated (modAt (· + hours) 0 s.life) d.mem.repairs
  let b := 1 - s.storeBank
  let seq := (s.storeSeq + 1) % 2 ^ 32
  let head := le 4 0x53484654 ++ le 4 seq ++ le 4 body.length ++ zeros 4 ++ sha384 body
  let fl := memWriteBytes (memClear s.flash (storeOff b) (storeOff b + 0x10000)) (storeOff b + 4096) body
  { d with sec := { s with flash := memWriteBytes fl (storeOff b) head, storeSeq := seq, storeBank := b, dirty := false } }

/-! ### Keys and attestation -/

def asciiBytes (s : String) : List Byte := s.toList.map fun c => BitVec.ofNat 8 c.toNat

def secretBytes : List Byte := be 48 Config.deviceSecret.toNat

/-- The identity key (R503). -/
def idk : Nat := kdfScalar secretBytes (asciiBytes "IDK") [] 64 1

/-- The attestation key of an image (R503). -/
def akOf (hash : List Byte) : Nat := kdfScalar secretBytes (asciiBytes "AK") hash 64 1

/-- The device identity (R432, R503). -/
def deviceId : Nat := ofLe ((sha384 (pubBytes idk)).take 8)

/-- The bypass entries of a core, ascending: row, and whether it comes from the health store (R151, R163). -/
def bypassRows (fused : List Nat) (c : Core) : List (Nat × Bool) :=
  let rows := (fused.map fun r => (r, false)) ++ c.bypass
  match rows with
  | a :: b :: _ => if b.1 < a.1 then [b, a] else [a, b]
  | l => l

/-- CORE_MXA_MAP of a core (R163). -/
def mxaMap (fused : List Nat) (c : Core) : Nat :=
  let rows := bypassRows fused c
  let one := fun i => match rows[i]? with
    | some r => r.1 % 64 + 64 + 128 * b2n r.2
    | none => 0
  one 0 + one 1 * 256 + (match c.suspect with | some r => r % 64 * 2 ^ 16 + 2 ^ 22 | none => 0) +
    (if 2 ≤ rows.length then 2 ^ 24 else 0)

/-- Insertion of a repair by pseudo-channel, bank, row. -/
def insertRepair (r : RowRepair) : List RowRepair → List RowRepair
  | [] => [r]
  | q :: qs =>
    if r.pc < q.pc || (r.pc == q.pc && (r.bank < q.bank || (r.bank == q.bank && r.row ≤ q.row))) then r :: q :: qs
    else q :: insertRepair r qs

/-- The repair-map digest (R504). -/
def Dev.repairDigest (d : Dev) : List Byte :=
  let maps := (List.zip d.sec.fused d.cores).flatMap fun p => le 8 (mxaMap p.1 p.2 % 2 ^ 25)
  let reps := (d.mem.repairs.foldl (fun l r => insertRepair r l) []).flatMap fun r =>
    le 2 r.pc ++ le 1 r.bank ++ [0] ++ le 4 r.row
  let mig := d.mem.migrated.flatMap fun g => le 2 g.1 ++ le 2 g.2
  sha384 (maps ++ reps ++ mig)

/-- SEC_KEY_SLOTS (R509). -/
def Sec.keySlots (s : Sec) : Nat :=
  let bit := fun (f : KeySlot → Bool) => sum ((List.zip (upTo 4) s.slots).map fun p => if f p.2 then 2 ^ p.1 else 0)
  bit (·.enabled) + bit KeySlot.revoked * 16 + ((s.running.map (·.slot)).getD 0) * 256 + s.rollbackMin * 65536

/-- The state of the charter as a number (R378). -/
def CharterState.code : CharterState → Nat
  | .empty => 0
  | .loaded => 1
  | .sealed => 2

/-- A measurement block (R504): its content in the order the table names it (log 14). -/
def Dev.measurement (d : Dev) (i : Nat) : List Byte :=
  match i with
  | 1 => le 4 Config.romVersion.toNat ++ le 8 d.sec.keySlots
  | 2 =>
    match d.sec.running with
    | some r => le 1 r.bank ++ le 4 r.seq ++ r.vers.flatMap (le 4) ++ r.hash
    | none => []
  | 3 => le 1 d.charter.st.code ++ (match d.charter.cur with | some c => c.digest | none => zeros 48)
  | 4 => d.repairDigest
  | _ => []

/-- The certificate chain of slot 0: the board data's chain, then AK's point (R504; the encoding of certificates is the
standard's, log 14). -/
def Dev.certChain (d : Dev) : List Byte :=
  memBytes d.sec.flash 0x202000C (at_ (memBytes d.sec.flash 0x2020000 12) 8 4 % 65536) ++
  pubBytes (akOf ((d.sec.running.map (·.hash)).getD []))

/-- What an SPDM request is answered with (R504): the content the spec gives, signed with AK where the request asks for a
signature. -/
def Dev.spdmAnswer (d : Dev) (q : SpdmReq) (nonce : List Byte) : List Byte :=
  let ak := akOf ((d.sec.running.map (·.hash)).getD [])
  let blocks := fun i => if i = 0xFF then (upTo 4).flatMap fun k => d.measurement (k + 1) else d.measurement i
  match q with
  | .getVersion => le 1 0x12
  | .getCapabilities => []
  | .negotiateAlgorithms => []
  | .getDigests => sha384 d.certChain
  | .getCertificate o n => (d.certChain.drop o).take n
  | .challenge n => let m := sha384 d.certChain ++ n ++ nonce; m ++ ecdsaSign ak m
  | .getMeasurements i n =>
    match n with
    | some n => let m := blocks i ++ n ++ nonce; m ++ ecdsaSign ak m
    | none => blocks i
  | .unsupported _ => []

end Sys2Proof.Machine
end

