-- ==== Sys2Proof/Machine/Depot.lean ====
section
/-! DEFINITION. Depots (R382 to R393, R397, R398): levels and headwind, allocation, freeing, headers, and the depots a
charter makes. -/

namespace Sys2Proof.Machine

/-- Depot IDs (R382). -/
def videoDepot (cls : Nat) : Nat := cls
def inputDepot (p : Nat) : Nat := 0x10 + p
def outputDepot (p : Nat) : Nat := 0x20 + p
def trackerDepot (p : Nat) : Nat := 0x30 + p
def encodeDepot : Nat := 0x40
def overflowDepot (f : Nat) : Nat := 0x50 + f

/-- The preprocessing stage and the tracker stage as owners of INPUT and OUTPUT reservations (R382, R388). -/
def stagePre : Nat := 0
def stageTrk : Nat := 1

/-- An OVERFLOW depot holds records in place of buffers (R392). -/
def Depot.isOverflow (x : Depot) : Bool := 0x50 ≤ x.id

/-- LEVEL (R392). -/
def Depot.level (x : Depot) : Nat := if x.isOverflow then x.records else x.held.length

/-- F of R387. -/
def Depot.freeCount (x : Depot) : Nat := if x.isOverflow then x.count - x.records else x.free.length

/-- Buffers an owner holds: h_o (R387). -/
def Depot.holds (x : Depot) (o : Nat) : Nat := (x.held.filter (·.2 == o)).length

/-- The reservation m_o of an owner (R387). -/
def Depot.resOf (x : Depot) (o : Nat) : Nat := ((x.res.find? (·.1 == o)).map (·.2)).getD 0

/-- What the other owners' reservations still need (R387). -/
def Depot.othersNeed (x : Depot) (o : Nat) : Nat :=
  sum ((x.res.filter (·.1 != o)).map fun r => r.2 - x.holds r.1)

/-- An allocation by owner `o` succeeds (R386, R387). -/
def Depot.canAlloc (x : Depot) (o : Nat) : Bool :=
  !x.rebuild && !x.free.isEmpty && (x.holds o < x.resOf o || x.othersNeed o ≤ x.freeCount - 1)

/-- The head of the free list goes to an owner (R385). -/
def Depot.take (x : Depot) (o : Nat) : Nat × Depot :=
  match x.free with
  | [] => (0, x)
  | i :: is => (i, { x with free := is, held := x.held ++ [(i, o)] })

/-- A buffer goes back to the head of the free list (R385). -/
def Depot.give (x : Depot) (i : Nat) : Depot :=
  if x.held.any (·.1 == i) then { x with free := i :: x.free, held := x.held.filter (·.1 != i) } else x

/-- The depot header of a buffer (R384). -/
def Depot.header (x : Depot) (i : Nat) : List Byte :=
  let alloc := x.held.any (·.1 == i)
  let next :=
    if alloc then 0
    else
      match x.free.findIdx? (· == i) with
      | some k => ((x.free[k + 1]?).map fun n => n * (x.bufKib * 1024)).getD 0xFFFFFFFFFFFFFFFF
      | none => 0xFFFFFFFFFFFFFFFF
  le 8 next ++ le 4 i ++ le 1 x.id ++ le 1 (if alloc then 0xA1 else 0xF5) ++ le 2 ((i * 0x9E37 + x.id) % 65536)

/-- Headwind after a change of LEVEL: the depot, and which of headwind-1 and headwind-2 were raised (R392). -/
def Depot.sample (x : Depot) : Depot × Bool × Bool :=
  let l := x.level
  if x.count = 0 then (x, false, false)
  else
    let r1 := !x.h1 && x.hw1 ≤ l
    let r2 := !x.h2 && x.hw2 ≤ l
    ({ x with
        h1 := if x.h1 then !(decide (l < x.hw1 - x.hyst)) else r1
        h2 := if x.h2 then !(decide (l < x.hw2 - x.hyst)) else r2
        seen1 := x.seen1 || r1, seen2 := x.seen2 || r2
        ev1 := satAdd 64 x.ev1 (b2n r1), ev2 := satAdd 64 x.ev2 (b2n r2)
        peak := max x.peak l }, r1, r2)

/-- The functions a depot serves (R392). -/
def Dev.depotFns (d : Dev) (id : Nat) : List Nat :=
  match depotPart id with
  | some p => ((d.part? p).map fun x => [x.owner]).getD []
  | none =>
    if 0x50 ≤ id then [id - 0x50]
    else if id = encodeDepot then (upTo 7).filter fun f => d.video.clips.any fun c => c.fn == f && c.ended.isNone
    else (upTo 7).filter fun f => d.video.streams.any fun s => s.fn == f && s.cls == id

/-- A depot replaced by what an operation made of it, with its headwind sampled and its events raised (R392). -/
def Dev.putDepot (d : Dev) (x : Depot) : Dev :=
  let r := x.sample
  let d := (d.modDepot x.id fun _ => r.1).fireAll
    ((if r.2.1 then [.hw1 x.id] else []) ++ if r.2.2 then [.hw2 x.id] else [])
  let fs := 0 :: (d.depotFns x.id).filter (· != 0)
  let d := if r.2.1 then fs.foldl (fun d f => d.raiseEvent f 1) d else d
  if r.2.2 then fs.foldl (fun d f => d.raiseEvent f 1) d else d

/-- An allocation: the buffer, and the device with it granted; none where it waits or is refused (R387). -/
def Dev.alloc (d : Dev) (id o : Nat) : Option (Nat × Dev) :=
  match d.depot? id with
  | some x => if x.canAlloc o then some ((x.take o).1, d.putDepot (x.take o).2) else none
  | none => none

/-- `n` allocations for one owner, or none of them. -/
def Dev.allocN (d : Dev) (id o : Nat) : Nat → Option (List Nat × Dev)
  | 0 => some ([], d)
  | n + 1 =>
    match d.allocN id o n with
    | some (l, d) =>
      match d.alloc id o with
      | some (i, d) => some (l ++ [i], d)
      | none => none
    | none => none

/-- A buffer is freed (R385, R391). -/
def Dev.freeBuf (d : Dev) (id i : Nat) : Dev :=
  match d.depot? id with
  | some x => d.putDepot (x.give i)
  | none => d

/-- Bytes written to a buffer of a depot, cut at its end. -/
def Dev.bufPut (d : Dev) (id i off : Nat) (bs : List Byte) : Dev :=
  match d.depot? id with
  | some x => d.bufWrite x i off (bs.take (x.bufKib * 1024 - off))
  | none => d

/-- Every buffer an owner holds in a depot is freed, and its reservation released. -/
def Dev.freeOwner (d : Dev) (id o : Nat) : Dev :=
  match d.depot? id with
  | some x =>
    let y := (x.held.filter (·.2 == o)).foldl (fun x h => x.give h.1) x
    d.putDepot { y with res := y.res.filter (·.1 != o) }
  | none => d

/-- The reservation of an owner is set (R388). -/
def Dev.reserve (d : Dev) (id o m : Nat) : Dev :=
  d.modDepot id fun x => { x with res := x.res.filter (·.1 != o) ++ [(o, m)] }

/-- A join's tracker buffer: granted only where at least MIN_B buffers stay free (R388). -/
def Dev.allocTracker (d : Dev) (p o : Nat) : Option (Nat × Dev) :=
  match d.depot? (trackerDepot p) with
  | some x =>
    if !x.free.isEmpty && x.minB ≤ x.freeCount - 1 then some ((x.take o).1, d.putDepot (x.take o).2)
    else none
  | none => none

/-- Headwind-1 or headwind-2 of a depot is raised (R392). -/
def Dev.hw1 (d : Dev) (id : Nat) : Bool := ((d.depot? id).map (·.h1)).getD false
def Dev.hw2 (d : Dev) (id : Nat) : Bool := ((d.depot? id).map (·.h2)).getD false

/-- A bad header was met: the error counts, ST2 records it, and the free list is rebuilt (R386). -/
def Dev.tagError (d : Dev) (id : Nat) : Dev :=
  let d := d.modDepot id fun x => { x with tagErr := satAdd 64 x.tagErr 1, rebuild := true }
  d.health 0x08 1 (hUnit 0 0) 0 [id]

/-! ### The depots of a charter -/

/-- A depot as SEAL builds it, all buffers free in ascending order. -/
def mkDepot (id bufKib count minA minB h1 h2 hyst base : Nat) (res : List (Nat × Nat)) : Depot :=
  { id := id, bufKib := bufKib, count := count, minA := minA, minB := minB, hw1 := h1, hw2 := h2, hyst := hyst,
    base := base, free := if 0x50 ≤ id then [] else upTo count, held := [], res := res, records := 0, h1 := false,
    h2 := false, seen1 := false, seen2 := false, rebuild := false, peak := 0, ev1 := 0, ev2 := 0, tagErr := 0 }

/-- The bytes of a partition's depots (R398). -/
def partDepotBytes (c : Charter) (p : Nat) : Nat :=
  sum ((c.depots.filter fun x => x.index == p && 1 ≤ x.kind && x.kind ≤ 3).map fun x => x.count * x.bufKib * 1024)

/-- The entry of a kind and index. -/
def Charter.depotCfg? (c : Charter) (k i : Nat) : Option DepotCfg := c.depots.find? fun x => x.kind == k && x.index == i

/-- The depots of a partition: input, output, tracker, at the top of its space (R383). -/
def partDepots (c : Charter) (p space : Nat) : List Depot :=
  let top := space - partDepotBytes c p
  let sz := fun k => ((c.depotCfg? k p).map fun x => x.count * x.bufKib * 1024).getD 0
  let mk := fun k id base (res : DepotCfg → List (Nat × Nat)) =>
    match c.depotCfg? k p with
    | some x => if x.count = 0 then [] else [mkDepot id x.bufKib x.count x.minA x.minB x.hw1 x.hw2 x.hyst base (res x)]
    | none => []
  let two := fun (x : DepotCfg) => [(stagePre, x.minA), (stageTrk, x.minB)]
  mk 1 (inputDepot p) top two ++ mk 2 (outputDepot p) (top + sz 1) two ++
  mk 3 (trackerDepot p) (top + sz 1 + sz 2) (fun _ => [])

/-- The depots of the common pool (R382, R398). Where they lie in the pool is not stated; DEP_D_BASE shows a free value
(log 12). -/
def commonDepots (c : Charter) : List Depot :=
  let vid := (c.depots.filter (·.kind == 0)).map fun x =>
    mkDepot (videoDepot x.index) x.bufKib x.count 0 0 x.hw1 x.hw2 x.hyst 0 []
  let enc := (c.depots.filter fun x => x.kind == 4 && x.count != 0).map fun x =>
    mkDepot encodeDepot x.bufKib x.count 0 0 x.hw1 x.hw2 x.hyst 0 []
  let hasOv := c.depots.any (·.kind == 5)
  let ov := if hasOv then
      (c.depots.filter (·.kind == 5)).map fun x =>
        mkDepot (overflowDepot x.index) x.bufKib (x.bufKib * 8) 0 0 x.hw1 x.hw2 x.hyst 0 []
    else
      let kib := 65536 / c.funcs.length / 4 * 4
      c.funcs.map fun f => mkDepot (overflowDepot f.fn) kib (kib * 8) 0 0 (kib * 8 / 2) (kib * 8 * 3 / 4) 1024 0 []
  vid ++ enc ++ ov

end Sys2Proof.Machine
end

