-- ==== Sys2Proof/Machine/Queues.lean ====
section
/-! DEFINITION. Queues, doorbells, records, interrupts (R442 to R452, R461) and the result writer (R396, R448). -/

namespace Sys2Proof.Machine

/-! ### Queue descriptors (R442) -/

def Queue.type (q : Queue) : Nat := at_ q.desc 0 1
def Queue.size (q : Queue) : Nat := 2 ^ at_ q.desc 1 1
def Queue.vector (q : Queue) : Nat := at_ q.desc 2 2
def Queue.partner (q : Queue) : Nat := at_ q.desc 4 4 % 2 ^ 20
def Queue.ring (q : Queue) : Nat := at_ q.desc 8 8
def Queue.headAddr (q : Queue) : Nat := at_ q.desc 0x10 8
def Queue.coalesce (q : Queue) : Nat := max 1 (at_ q.desc 0x18 2)
def Queue.coalesceUs (q : Queue) : Nat := at_ q.desc 0x1A 2
def Queue.weight (q : Queue) : Nat := max 1 (at_ q.desc 0x1C 1)

/-- Queue `q` lies in the range of function `f` (R351). -/
def Dev.ownsQueue (d : Dev) (f q : Nat) : Bool :=
  match d.funcCfg? f with
  | some g => g.queueFirst ≤ q && q < g.queueFirst + g.queueCount
  | none => false

/-- The queue is enabled. -/
def Dev.queueOn (d : Dev) (q : Nat) : Bool := (d.queue? q).any fun x => x.st == .enabled

/-- An enabled CQ of a function (R444). -/
def Dev.enabledCq (d : Dev) (f q : Nat) : Bool :=
  (d.queue? q).any fun x => x.st == .enabled && x.fn == f && x.type == 4

/-- A descriptor that ENABLE accepts (R442, R443, R452). -/
def Dev.descOk (d : Dev) (f : Nat) (b : List Byte) : Bool :=
  let ty := at_ b 0 1
  let cq := ty == 4
  1 ≤ ty && ty ≤ 4 && 4 ≤ at_ b 1 1 && at_ b 1 1 ≤ 20 && at_ b 4 4 < 2 ^ 20 &&
  at_ b 8 8 != 0 && at_ b 8 8 % 4096 == 0 && at_ b 0x10 8 % 8 == 0 && at_ b 0x18 2 ≤ 4096 && at_ b 0x1C 1 ≤ 16 &&
  (b.drop 0x1D).all (· == 0) &&
  (if cq then (at_ b 2 2 == 0xFFFF || at_ b 2 2 < vecCount f) && at_ b 4 4 == 0 && at_ b 0x10 8 == 0
   else at_ b 2 2 == 0xFFFF && d.enabledCq f (at_ b 4 4))

/-- Something still names the CQ: an enabled SQ, a bound route, an open clip or a waiting job (R443). -/
def Dev.namesCq (d : Dev) (q : Nat) : Bool :=
  d.queues.any (fun x => x.st == .enabled && x.type != 4 && x.partner == q) ||
  d.video.routes.any (fun r => r.bound && !bitAt (at_ r.desc 1 1) 2 && at_ r.desc 4 4 % 2 ^ 20 == q) ||
  d.video.clips.any (fun c => c.ended.isNone && (d.queue? (at_ c.cfg 0x2C 4 % 2 ^ 20)).any (·.partner == q)) ||
  let waits := fun (e : JobEntry) => match e.src with
    | .host _ cq _ _ _ => cq == q
    | _ => false
  d.parts.any (fun p => p.list.any waits || p.mustered.any waits) || d.ctxs.any fun c => waits c.entry

/-- Records of a CQ that are not yet written (R443). -/
def Dev.owesRecords (d : Dev) (f q : Nat) : Bool :=
  d.due.any (·.queue == q) || (d.fn f).overflow.any (·.queue == q)

/-- QSTATE (R461). -/
def Dev.qstate (d : Dev) (q : Nat) : Nat :=
  match (d.queue? q).map (fun (x : Queue) => x.st) with
  | some .enabled => 1
  | some .error => 2
  | _ => 0

/-- A queue command ends: RESULT and TAG, QSTATE and DEVICE of the queue (R461). -/
def Dev.queueEnds (d : Dev) (f q tag res : Nat) : Dev :=
  let st := d.qstate q
  let dev := ((d.queue? q).map (·.device)).getD 0
  d.modFn f fun x => { x with queueSts := { x.queueSts with busy := false, result := res, tag := tag, a := st, b := dev } }

/-- ENABLE (R355, R443). -/
def Dev.queueEnable (d : Dev) (f q tag : Nat) : Dev :=
  if !d.sealed then d.queueEnds f q tag 3
  else if !d.ownsQueue f q then d.queueEnds f q tag 2
  else if d.qstate q != 0 then d.queueEnds f q tag 3
  else
    let first := ((d.funcCfg? f).map (·.queueFirst)).getD 0
    let off := (d.fn f).qdBase + 64 * (q - first)
    let b := d.commonRead f off 64
    if !inSpan (d.commonGrant f).2 off 64 || !d.descOk f b then d.queueEnds f q tag 1
    else
      let new : Queue := { id := q, fn := f, desc := b, st := .enabled, driver := 0, device := 0, disabling := false,
                           sinceIrq := 0, firstTick := none, waits := none }
      let d : Dev := { d with queues := d.queues.filter (fun x => x.id != q) ++ [new] }
      d.queueEnds f q tag 0

/-- DISABLE (R443): an SQ stops at once; a CQ first has its unwritten records written. -/
def Dev.queueDisable (d : Dev) (f q tag : Nat) : Dev :=
  if !d.ownsQueue f q then d.queueEnds f q tag 2
  else
    match d.queue? q with
    | none => d.queueEnds f q tag 3
    | some x =>
      if x.st == .disabled then d.queueEnds f q tag 3
      else if x.type != 4 then (d.modQueue q fun x => { x with st := .disabled }).queueEnds f q tag 0
      else if d.namesCq q then d.queueEnds f q tag 3
      else if x.st == .enabled && d.owesRecords f q then
        (d.modQueue q fun x => { x with disabling := true }).modFn f fun y =>
          { y with queueSts := { y.queueSts with busy := true, tag := tag } }
      else (d.modQueue q fun x => { x with st := .disabled }).queueEnds f q tag 0

/-- QUERY (R443). -/
def Dev.queueQuery (d : Dev) (f q tag : Nat) : Dev := d.queueEnds f q tag (if d.ownsQueue f q then 0 else 2)

/-- RESET (R443): a queue in ERROR returns to disabled. -/
def Dev.queueReset (d : Dev) (f q tag : Nat) : Dev :=
  if !d.ownsQueue f q then d.queueEnds f q tag 2
  else if d.qstate q = 2 then (d.modQueue q fun x => { x with st := .disabled }).queueEnds f q tag 0
  else d.queueEnds f q tag 3

/-- A disabling CQ has no unwritten record left. -/
def dueCqDisable (q : Nat) (d : Dev) : Bool :=
  match d.queue? q with
  | some x => x.disabling && !d.owesRecords x.fn q
  | none => false

/-- The queue is disabled and the command ends (R443). -/
def Dev.cqDisabled (d : Dev) (q : Nat) : Dev :=
  match d.queue? q with
  | some x =>
    let tag := (d.fn x.fn).queueSts.tag
    (d.modQueue q fun x => { x with st := .disabled, disabling := false }).queueEnds x.fn q tag 0
  | none => d

/-- HIF_QUEUE_CMD by its OP (R461). -/
def Dev.queueOp (d : Dev) (f op q tag : Nat) : Dev :=
  d.takeCmd f .queue 50 fun d =>
    match op with
    | 1 => d.queueEnable f q tag
    | 2 => d.queueDisable f q tag
    | 3 => d.queueQuery f q tag
    | 4 => d.queueReset f q tag
    | _ => d.queueEnds f q tag 1

/-! ### Doorbells -/

/-- The queue goes to ERROR for a doorbell error (R446). -/
def Dev.doorbellError (d : Dev) (f q v : Nat) : Dev :=
  let d := d.modQueue q fun x => { x with st := .error }
  let d := d.modFn f fun x => { x with doorbellErrors := satAdd 64 x.doorbellErrors 1 }
  (d.logError f 1 q v).raiseEvent f 3

/-- A doorbell that would be an error (R446). -/
def Queue.badBell (x : Queue) (v : Nat) : Bool :=
  if x.type = 4 then seqNewer 32 v x.device else x.size < (v + 2 ^ 32 - x.device) % 2 ^ 32

/-- A doorbell write of `v` to queue `q` (R445, R446). -/
def Dev.doorbell (d : Dev) (f q : Nat) (h : Half) (v : Nat) : Dev :=
  match d.queue? q with
  | none => d
  | some x =>
    if h = .high ∨ x.fn != f ∨ !d.ownsQueue f q ∨ x.st != .enabled then d
    else if h = .full ∧ 2 ^ 32 ≤ v then d.doorbellError f q v
    else if v % 2 ^ 32 = x.driver then d
    else if x.badBell (v % 2 ^ 32) then d.doorbellError f q v
    else d.modQueue q fun x => { x with driver := v % 2 ^ 32 }

/-- A doorbell access (R437, R469, R494): ignored while the device sleeps or recovers. -/
def Dev.doorbellAccess (d0 : Dev) (f q : Nat) (h : Half) (v : Nat) : Dev :=
  let d := d0.wakeLink
  let x := d.fn f
  if !x.present then d
  else if !x.mse || x.d3 then d.logError f 5 0 0
  else if d.serves f .rest then d.doorbell f q h v
  else d

/-! ### Writing records -/

/-- CQ `q` has a free place and may be written now (R448). -/
def Dev.cqFree (d : Dev) (x : Queue) : Bool :=
  x.st == .enabled && x.type == 4 && d.mayRequest x.fn && (x.device + 2 ^ 32 - x.driver) % 2 ^ 32 < x.size

/-- The vector of a CQ is raised and its coalescing starts anew (R451). -/
def Dev.raiseCq (d : Dev) (x : Queue) : Dev :=
  let d := d.modQueue x.id fun q => { q with sinceIrq := 0, firstTick := none }
  if x.vector = 0xFFFF then d else d.raiseVec x.fn x.vector

/-- One record written to its slot, its SEQ filled in (R297, R448), and the interrupt it completes (R451). -/
def Dev.putRecord (d : Dev) (x : Queue) (bs : List Byte) : Dev :=
  let d := d.post x.fn (x.ring + x.device % x.size * 128) (le 4 x.device ++ bs.drop 4)
  let y := { x with device := (x.device + 1) % 2 ^ 32, sinceIrq := x.sinceIrq + 1,
                    firstTick := some (x.firstTick.getD d.ticks) }
  let d := d.modQueue x.id fun _ => y
  if y.coalesce ≤ y.sinceIrq then d.raiseCq y else d

/-- A record goes to its function's OVERFLOW depot (R396). -/
def Dev.putOverflow (d : Dev) (f q : Nat) (bs : List Byte) : Dev :=
  let d := d.modFn f fun x => { x with overflow := x.overflow ++ [{ queue := q, bytes := bs }] }
  match d.depot? (overflowDepot f) with
  | some x => d.putDepot { x with records := x.records + 1 }
  | none => d

/-- The OVERFLOW depot has a place. -/
def Dev.overflowRoom (d : Dev) (f : Nat) : Bool :=
  (d.depot? (overflowDepot f)).any fun x => x.records < x.count

/-- The record is written directly: its queue has a place and none of its records lies in overflow (R396, R448). -/
def Dev.direct (d : Dev) (r : DueRec) : Bool :=
  (d.queue? r.queue).any (fun x => x.fn == r.fn && d.cqFree x) && !(d.fn r.fn).overflow.any (·.queue == r.queue)

/-- The oldest record due on a queue. -/
def Dev.nextDue (d : Dev) (q : Nat) : Option DueRec := d.due.find? (·.queue == q)

/-- A list without its first element that `p` selects. -/
def dropFirst {α : Type} (p : α → Bool) : List α → List α
  | [] => []
  | x :: xs => if p x then xs else x :: dropFirst p xs

/-- RECORD_WRITE is due: a record waits, and its queue or the OVERFLOW depot takes it. -/
def dueRecordWrite (q : Nat) (d : Dev) : Bool :=
  match d.nextDue q with
  | some r => d.mainUp && (d.direct r || d.overflowRoom r.fn)
  | none => false

/-- What a record's issue frees (R391). -/
def Dev.recordIssued (d : Dev) (r : DueRec) : Dev :=
  match r.last with
  | some (dep, ix) => d.freeBuf dep ix
  | none => d

/-- The result writer writes the oldest record due on the queue (R448, R396). -/
def Dev.recordWrite (d : Dev) (q : Nat) : Dev :=
  match d.nextDue q with
  | none => d
  | some r =>
    let d := { d with due := dropFirst (·.queue == q) d.due }
    let d := match d.queue? q with
      | some x => if d.direct r then d.putRecord x r.bytes else d.putOverflow r.fn q r.bytes
      | none => d.putOverflow r.fn q r.bytes
    d.recordIssued r

/-- OVERFLOW_DRAIN is due: a record of the queue lies in overflow and the queue has a place (R396). -/
def dueOverflowDrain (q : Nat) (d : Dev) : Bool :=
  match d.queue? q with
  | some x => d.mainUp && d.cqFree x && (d.fn x.fn).overflow.any (·.queue == q)
  | none => false

/-- Overflowed records of the queue drain in order, as many as find a place (R396). -/
def Dev.drainOverflow (q : Nat) : Nat → Dev → Dev
  | 0, d => d
  | n + 1, d =>
    match d.queue? q with
    | none => d
    | some x =>
      match (d.fn x.fn).overflow.find? (·.queue == q) with
      | none => d
      | some r =>
        if d.cqFree x then
          let d := d.putRecord x r.bytes
          let d := d.modFn x.fn fun y => { y with overflow := dropFirst (·.queue == q) y.overflow }
          let d := match d.depot? (overflowDepot x.fn) with
            | some o => d.putDepot { o with records := o.records - 1 }
            | none => d
          drainOverflow q n d
        else d

/-- MSIX_COALESCE_TIMEOUT is due (R451). -/
def dueCoalesce (q : Nat) (d : Dev) : Bool :=
  match d.queue? q with
  | some x => d.mainUp && x.st == .enabled && 1 ≤ x.sinceIrq &&
      (match x.firstTick with | some t => t + x.coalesceUs * usTicks ≤ d.ticks | none => false)
  | none => false

/-- A record becomes due on a queue. -/
def Dev.owe (d : Dev) (f q : Nat) (bs : List Byte) (last : Option (Nat × Nat)) : Dev :=
  { d with due := d.due ++ [{ fn := f, queue := q, bytes := bs, last := last }] }

/-! ### Meanings -/

/-- QUEUE_ENABLE (R443). -/
def execQueueEnable (fn queue tag : Nat) (s : State) : Host.Outcome State Fault Refusal :=
  always s fun d => d.access fn .rest fun d => d.queueOp fn 1 (queue % 2 ^ 20) (tag % 256)

/-- QUEUE_DISABLE (R443). -/
def execQueueDisable (fn queue tag : Nat) (s : State) : Host.Outcome State Fault Refusal :=
  always s fun d => d.access fn .rest fun d => d.queueOp fn 2 (queue % 2 ^ 20) (tag % 256)

/-- QUEUE_QUERY (R443). -/
def execQueueQuery (fn queue tag : Nat) (s : State) : Host.Outcome State Fault Refusal :=
  always s fun d => d.access fn .rest fun d => d.queueOp fn 3 (queue % 2 ^ 20) (tag % 256)

/-- QUEUE_RESET (R443). -/
def execQueueReset (fn queue tag : Nat) (s : State) : Host.Outcome State Fault Refusal :=
  always s fun d => d.access fn .rest fun d => d.queueOp fn 4 (queue % 2 ^ 20) (tag % 256)

/-- CQ_DISABLE_COMPLETE (R443). -/
def execCqDisableComplete (queue : Nat) (s : State) : Host.Outcome State Fault Refusal :=
  whenDue "CQ_DISABLE_COMPLETE" (dueCqDisable queue s.dev) s fun d => d.cqDisabled queue

/-- DOORBELL_WRITE (R445, R446). -/
def execDoorbellWrite (fn queue : Nat) (half : Half) (value : Reg) (s : State) : Host.Outcome State Fault Refusal :=
  always s fun d => d.doorbellAccess fn queue half value.toNat

/-- RECORD_WRITE (R448). -/
def execRecordWrite (queue : Nat) (s : State) : Host.Outcome State Fault Refusal :=
  whenDue "RECORD_WRITE" (dueRecordWrite queue s.dev) s fun d => d.recordWrite queue

/-- OVERFLOW_DRAIN (R396). -/
def execOverflowDrain (queue : Nat) (s : State) : Host.Outcome State Fault Refusal :=
  whenDue "OVERFLOW_DRAIN" (dueOverflowDrain queue s.dev) s fun d =>
      Dev.drainOverflow queue (sum (d.fns.map (·.overflow.length))) d

/-- MSIX_COALESCE_TIMEOUT (R451). -/
def execMsixCoalesceTimeout (queue : Nat) (s : State) : Host.Outcome State Fault Refusal :=
  whenDue "MSIX_COALESCE_TIMEOUT" (dueCoalesce queue s.dev) s fun d =>
      match d.queue? queue with
      | some x => d.raiseCq x
      | none => d

/-- MSIX_UNMASK (R452): the mask bit of a vector's table entry is cleared; a pending message is sent. -/
def execMsixUnmask (fn vec : Nat) (s : State) : Host.Outcome State Fault Refusal :=
  always s fun d => d.access fn .msix fun d =>
    if vecCount fn ≤ vec then d
    else
    let d := d.modFn fn fun x =>
      let e := x.entry vec
      { x with msix := x.msix.filter (·.vec != vec) ++ [{ e with ctl := e.ctl - e.ctl % 2 }] }
    if d.mayRequest fn then d.flushPending fn else d

end Sys2Proof.Machine
end

