-- ==== Sys2Proof/Machine/Power.lean ====
section
/-! DEFINITION. Leeward domain, activity filters, clocks, power capping, coolant and leaks (R464 to R485). -/

namespace Sys2Proof.Machine

/-! ### Activity filters -/

/-- A filter at its reset values (R484). -/
def Filter.reset (i : Nat) : Filter :=
  { ix := i, cfg := 3 * 2 ^ 16 + 32 * 2 ^ 20 + 2 * 2 ^ 28, bounds := 0xFFFFFF * 2 ^ 32, avg := 0, hits := 0, baseline := 0,
    last := 0 }

def Lwd.filter (l : Lwd) (i : Nat) : Filter := (l.filters.find? (·.ix == i)).getD (Filter.reset i)

def Lwd.setFilter (l : Lwd) (f : Filter) : Lwd :=
  { l with filters := l.filters.filter (fun g => decide (g.ix < f.ix)) ++ (if f == Filter.reset f.ix then [] else [f]) ++
      l.filters.filter fun g => decide (f.ix < g.ix) }

def Filter.stream (f : Filter) : Nat := bits f.cfg 0 14
def Filter.enabled (f : Filter) : Bool := bitAt f.cfg 14
def Filter.shift (f : Filter) : Nat := max 1 (bits f.cfg 16 3)
def Filter.ratio (f : Filter) : Nat := max 17 (bits f.cfg 20 8)
def Filter.needed (f : Filter) : Nat := max 1 (bits f.cfg 28 4)
def Filter.bmin (f : Filter) : Nat := bits f.bounds 0 24
def Filter.bmax (f : Filter) : Nat := max f.bmin (bits f.bounds 32 24)
def Filter.bshift (f : Filter) : Nat :=
  let b := bits f.bounds 24 4
  if b = 0 then 0 else max 6 b

/-- A notice of a chunk of `n` bytes taken by a filter: its update, and whether it reaches HITS (R471). -/
def Filter.note (f : Filter) (intra : Bool) (n ts : Nat) : Filter × Bool :=
  let f := { f with last := ts }
  if intra then (f, false)
  else
    let avg := wrapInt 32 ((f.avg : Int) + ((n * 256 : Nat) - (f.avg : Int)) / (2 ^ f.shift : Nat))
    if f.baseline * f.ratio * 16 ≤ avg then
      ({ f with avg := avg, hits := min 15 (f.hits + 1) }, f.needed ≤ f.hits + 1)
    else
      let b := if f.bshift = 0 then f.baseline else
        (clampI f.bmin f.bmax ((f.baseline : Int) + (((avg / 256 : Nat) : Int) - f.baseline) / (2 ^ f.bshift : Nat))).toNat
      ({ f with avg := avg, hits := 0, baseline := b }, false)

/-- A write of the selected filter: AVG takes BASELINE x 256, hits restart (R471, R484). -/
def Lwd.filterWrite (l : Lwd) (h : Half) (v : Nat) : Lwd :=
  let f := l.filter l.filterSel
  let cfg := rwWrite h 0x00FFFFFFFFF77FFF f.cfg v
  l.setFilter { f with cfg := cfg, avg := bits cfg 32 24 * 256, hits := 0, baseline := bits cfg 32 24 }

/-- A write of the selected filter's bounds. -/
def Lwd.boundsWrite (l : Lwd) (h : Half) (v : Nat) : Lwd :=
  let f := l.filter l.filterSel
  l.setFilter { f with bounds := rwWrite h 0x00FFFFFF0FFFFFFF f.bounds v }

/-! ### States -/

/-- Filter and timer wakes are ignored while a leak under LEAK_ACTION 2 lasts (R477). -/
def Lwd.wakeHeld (l : Lwd) : Bool := bitAt l.coolant 28 && 2 ≤ bits l.coolantPolicy 12 2

/-- The leeward count in lk. -/
def Lwd.lkNow (l : Lwd) : Nat := l.ms * 52000 + l.lk

/-- The device leaves Leeward for Waking (R467, R471). -/
def Dev.startWake (d : Dev) (cause filter : Nat) : Dev :=
  if d.lwd.st = .leeward ∧ !d.lwd.tripped then
    { d with lwd := { d.lwd with
        st := .waking, cause := cause, wakeLk := d.lwd.lkNow
        wakeFilter := if cause = 2 then filter else d.lwd.wakeFilter } }
  else d

def Dev.lwdEnds (d : Dev) (tag res : Nat) : Dev := { d with lwd := { d.lwd with result := res, tag := tag } }

/-- LWD_CMD (R467, R478, R479, R482): a WAKE in the lk of a filter's wake is its cause. -/
def Dev.lwdCmd (d : Dev) (op tag : Nat) : Dev :=
  match op with
  | 1 =>
    if d.lwd.st = .active ∧ d.boot = .done then
      ({ d with lwd := { d.lwd with st := .draining } } : Dev).lwdEnds tag 0
    else d.lwdEnds tag 2
  | 2 =>
    if d.lwd.tripped then d.lwdEnds tag 2
    else
      match d.lwd.st with
      | .draining => ({ d with lwd := { d.lwd with st := .active } } : Dev).lwdEnds tag 0
      | .leeward => (d.startWake 1 0).lwdEnds tag 0
      | .waking =>
        let first := d.lwd.cause == 2 && d.lwd.wakeLk == d.lwd.lkNow
        ({ d with lwd := { d.lwd with cause := if first then 1 else d.lwd.cause } } : Dev).lwdEnds tag 0
      | _ => d.lwdEnds tag 0
  | _ => d.lwdEnds tag 1

/-- LWD_CMD is a register of the LWD page, PF only. -/
def Dev.lwdAccess (d : Dev) (k : Dev → Dev) : Dev := d.access 0 .lwd k

/-- The notice that a write of LWD_NOTICE_HI commits (R470, R471, R483). -/
def Dev.notice (d : Dev) (ts : Nat) : Dev :=
  let lo := d.lwd.noticeLo
  let stream := bits lo 0 14
  let hit := d.lwd.filters.filter fun f => f.enabled && f.stream == stream
  if d.lwd.st != .leeward || hit.isEmpty then { d with lwd := { d.lwd with ignored := satAdd 64 d.lwd.ignored 1 } }
  else
    let d := { d with lwd := { d.lwd with notices := satAdd 64 d.lwd.notices 1 } }
    hit.foldl (fun d f =>
      let r := f.note (bits lo 16 2 == 0) (bits lo 32 32) ts
      let d := { d with lwd := d.lwd.setFilter r.1 }
      if r.2 && !d.lwd.wakeHeld then d.startWake 2 f.ix else d) d

/-- Main-domain contents that power gating loses (R464, R478): the cores' memories and all work of the cores. -/
def gateCore (c : Core) : Core := { c with mem := CoreMem.zero, run := CoreRun.start, job := none }

/-- A context saved with no transfer on the save lane (R365). -/
def Ctx.asleep (c : Ctx) : Bool := c.lane.isNone && (c.st == .held || c.st == .becBlocked)

/-- No decode, pass, task, job, tracker step, save or restore is in progress and no record is owed but in overflow, where
the records of a function that may issue no requests count (R468, R479). -/
def Dev.drained (d : Dev) : Bool :=
  d.video.vdec.all (·.job.isNone) && d.video.venc.all (·.job.isNone) && d.video.copier.isEmpty &&
  d.video.streams.all (fun s => s.pics.all fun p => p.phase == .decoded || p.phase == .gone || (p.phase == .fetching && !p.begun)) &&
  d.video.clips.all (fun c => c.queue.isEmpty && c.coding.isNone) && d.video.passes.isEmpty && d.video.cropTasks.isEmpty &&
  d.parts.all (·.list.isEmpty) && d.ctxs.all Ctx.asleep && d.trk.results.isEmpty && d.trk.steps.isEmpty &&
  d.due.all (fun r => !d.mayRequest r.fn) && d.mem.laneBusy.isNone && d.mem.laneQueue.isEmpty

/-- Draining has ended (R468): HBM enters self-refresh and the main domain is gated. -/
def Dev.enterLeeward (d : Dev) : Dev :=
  { d with lwd := { d.lwd with st := .leeward }, cores := d.cores.map gateCore,
           clk := { d.clk with pllLock := false },
           video := { d.video with
             vdec := d.video.vdec.map fun e => { e with job := none },
             venc := d.video.venc.map fun e => { e with job := none } } }

/-- The leak has been seen: report, and Draining from Active by LEAK_ACTION (R477, R479). -/
def Dev.leak (d : Dev) : Dev :=
  let d := (d.life 4 1).raiseEvent 0 3
  let d := if d.mainUp then d.health 0x0D 2 (hUnit 0 0) 0 [] else { d with lwd := { d.lwd with leakOwed := true } }
  if bits d.lwd.coolantPolicy 12 2 = 0 then d
  else
    match d.lwd.st with
    | .active => { d with lwd := { d.lwd with st := .draining } }
    | .waking => { d with lwd := { d.lwd with drainAfterWake := true } }
    | _ => d

/-! ### Throttling -/

/-- POWER_CAP_W, THROTTLE_MAX and T_TARGET as they act (R481). -/
def Clk.cap (c : Clk) : Nat := min 1150 (max 300 (bits c.policy 0 11))
def Clk.throttleMax (c : Clk) : Nat := min 64 (bits c.policy 16 7)
def Clk.target (c : Clk) : Nat := min 95 (max 60 (bits c.policy 24 7))

/-- One 100 µs step of the throttle (R473, R475, R476). -/
def Clk.throttle (c : Clk) (p : PowerFacts) (coreBusy : Bool) : Clk :=
  let pw := if c.powerProt then 1100 ≤ p.watts else 1150 < p.watts
  let th := 100 ≤ p.tjMax
  let m := c.throttleMax
  let exceeds := c.cap < p.watts || c.target < p.tjMax
  let l :=
    if pw || th then min 64 (c.level + 8)
    else
      let l := min c.level m
      if exceeds then min m (l + 4)
      else if p.watts * 100 < c.cap * 95 && p.tjMax + 2 ≤ c.target then l - 1
      else l
  let unmet := !(pw || th) && l == m && c.cap < p.watts
  { c with
    power := min p.watts 2047, tjMax := min p.tjMax 255, level := l, powerProt := pw, thermalProt := th,
    capUnmet := unmet, capUnmetCnt := satAdd 64 c.capUnmetCnt (b2n unmet),
    ovrPower := satAdd 64 c.ovrPower (b2n (pw && m < l)), ovrThermal := satAdd 64 c.ovrThermal (b2n (th && m < l)),
    gatedNs := satAdd 64 c.gatedNs (if coreBusy then 3125 * c.level / 2 else 0), vssStopped := 105 ≤ p.tjMax }

/-- A protection episode's first step is recorded, at most once per kind per second (R475). -/
def Dev.throttle (d : Dev) (p : PowerFacts) : Dev :=
  let c0 := d.clk
  let c := c0.throttle p (d.cores.any (·.job.isSome))
  let fresh := fun (last : Option Nat) => match last with | some t => t + secTicks ≤ d.ticks | none => true
  let recP := c.powerProt && !c0.powerProt && fresh c0.lastPowerRec
  let recT := c.thermalProt && !c0.thermalProt && fresh c0.lastThermalRec
  let c := { c with lastPowerRec := if recP then some d.ticks else c0.lastPowerRec,
                    lastThermalRec := if recT then some d.ticks else c0.lastThermalRec }
  let mcs := (List.zip (upTo 8) d.mem.mcs).map fun q => { q.2 with temp := min 255 ((p.stackTemps[q.1]?).getD q.2.temp) }
  let d : Dev := { d with clk := c, mem := { d.mem with mcs := mcs } }
  let d := if recP then d.health 0x0B 1 (hUnit 0 0) 0 [p.watts] else d
  if recT then d.health 0x0C 1 (hUnit 0 0) 0 [p.tjMax] else d

/-- One coolant sample (R477, R485). `pulses` counts flow-meter pulses per minute. -/
def Dev.coolant (d : Dev) (f : CoolantFacts) : Dev :=
  let pol := d.lwd.coolantPolicy
  let ppl := bits pol 20 12
  let flow := if ppl = 0 then 0 else min 4095 (f.pulses * 100 / ppl)
  let run := if f.leak then d.lwd.leakRun + 1 else 0
  let leak := 3 ≤ run
  let seen := bitAt d.lwd.coolant 33
  let reg := min f.inlet 255 + min f.outlet 255 * 2 ^ 8 + flow * 2 ^ 16 + b2n leak * 2 ^ 28 +
    b2n (decide (40 < f.inlet)) * 2 ^ 29 + b2n (decide (f.inlet < 17)) * 2 ^ 30 +
    b2n (ppl != 0 && decide (flow < bits pol 0 12)) * 2 ^ 31 + b2n f.sensorFault * 2 ^ 32 + b2n (seen || leak) * 2 ^ 33
  let d : Dev := { d with lwd := { d.lwd with coolant := reg, leakRun := run } }
  let d := if leak then d.fire .leak else d
  if leak && !seen then d.leak else d

/-- A junction reaches 110 °C (R478): the main domain is gated at once; its work is lost. -/
def Dev.trip (d : Dev) : Dev :=
  let d := d.enterLeeward
  let d : Dev := { d with
    lwd := { d.lwd with tripped := true, tripOwed := true, drainAfterWake := false }
    pins := { d.pins with thermtrip := true }
    ctxs := [], due := [], mem := { d.mem with laneBusy := none, laneQueue := [] }
    video := { d.video with passes := [], cropTasks := [], copier := [], clips := [] }
    trk := { d.trk with results := [], steps := [] } }
  d.emit (.thermtrip true)

/-! ### Meanings -/

/-- SLEEP (R467, R482). -/
def execSleep (tag : Nat) (s : State) : Host.Outcome State Fault Refusal :=
  always s fun d => d.lwdAccess fun d => d.lwdCmd 1 (tag % 256)

/-- WAKE (R467, R471, R482). -/
def execWake (tag : Nat) (s : State) : Host.Outcome State Fault Refusal :=
  always s fun d => d.lwdAccess fun d => d.lwdCmd 2 (tag % 256)

/-- NOTICE_COMMIT (R470, R471). -/
def execNoticeCommit (timestamp : Reg) (s : State) : Host.Outcome State Fault Refusal :=
  always s fun d => d.lwdAccess fun d => d.notice timestamp.toNat

/-- FILTER_WRITE (R471, R484). -/
def execFilterWrite (value : Reg) (s : State) : Host.Outcome State Fault Refusal :=
  always s fun d => d.lwdAccess fun d => { d with lwd := d.lwd.filterWrite .full value.toNat }

/-- WAKE_TIMER is due (R471, R477). -/
def dueWakeTimer (d : Dev) : Bool :=
  d.boot == .done && d.lwd.st == .leeward && !d.lwd.tripped && d.lwd.wakeAt != 0 && d.lwd.wakeAt ≤ d.lwd.ms &&
  !d.lwd.wakeHeld

/-- WAKE_TIMER (R471). -/
def execWakeTimer (s : State) : Host.Outcome State Fault Refusal :=
  whenDue "WAKE_TIMER" (dueWakeTimer s.dev) s fun d => d.startWake 3 0

/-- THROTTLE_UPDATE (R473 to R476). -/
def execThrottleUpdate (facts : PowerFacts) (s : State) : Host.Outcome State Fault Refusal :=
  whenDue "THROTTLE_UPDATE" s.dev.mainUp s fun d => d.throttle facts

/-- COOLANT_SAMPLE (R477). -/
def execCoolantSample (facts : CoolantFacts) (s : State) : Host.Outcome State Fault Refusal :=
  whenDue "COOLANT_SAMPLE" (s.dev.pins.leewardRail && s.dev.lwd.st != .off) s fun d => d.coolant facts

/-- THERMAL_TRIP (R478). -/
def execThermalTrip (s : State) : Host.Outcome State Fault Refusal :=
  whenDue "THERMAL_TRIP" (s.dev.boot == .done && s.dev.lwd.st != .off && !s.dev.lwd.tripped) s Dev.trip

/-- A boot is under way. -/
def Dev.inBoot (d : Dev) : Bool := match d.boot with
  | .booting _ _ => true
  | _ => false

/-- REF_LOST (R466): a boot waits for the reference (R548). -/
def execRefLost (s : State) : Host.Outcome State Fault Refusal :=
  whenDue "REF_LOST" (s.dev.clk.refPresent && (s.dev.inBoot || (s.dev.boot == .done && s.dev.lwd.st == .active))) s fun d =>
    let d : Dev := { d with clk := { d.clk with refPresent := false, pllLock := false } }
    if d.inBoot then d
    else (({ d with clk := { d.clk with refLostFlag := true } } : Dev).fire .refLost).health 0x0A 1 (hUnit 0 0) 0 []

/-- REF_RETURN (R466). -/
def execRefReturn (s : State) : Host.Outcome State Fault Refusal :=
  whenDue "REF_RETURN" (!s.dev.clk.refPresent) s fun d =>
    { d with clk := { d.clk with refPresent := true, pllLock := d.mainUp } }

end Sys2Proof.Machine
end

