-- ==== Sys2Proof/Machine/Boot.lean ====
section
/-! DEFINITION. Resets, boot, board pins, firmware commands and stewards (R486 to R508, R521 to R524, R532 to R540). -/

namespace Sys2Proof.Machine

/-! ### Resets -/

/-- The main domain and the endpoint at their reset values (R486). Flash, fuses, pins, the leeward domain and the outgoing
log stay; so do the station MAC and the queries of the verdict responder, whose registers are reset (R488, R549). -/
def Dev.resetMain (d : Dev) : Dev :=
  { Dev.reset with
    ticks := d.ticks, run := d.run, coreRun := d.coreRun, free := d.free, fresh := d.fresh, pins := d.pins, boot := .held,
    lwd := d.lwd, bus := d.bus
    clk := { Clk.reset with refPresent := d.clk.refPresent }
    vpt := { Vpt.reset with linkUp := d.vpt.linkUp, fecDegraded := d.vpt.fecDegraded, mac := d.vpt.mac,
                            allow := d.vpt.allow, ready := d.vpt.ready, held := d.vpt.held }
    sec := { Sec.reset with slots := d.sec.slots, rollbackMin := d.sec.rollbackMin, fused := d.sec.fused,
                            flash := d.sec.flash } }

/-- The leeward controller after a cold reset: the count, the boot count and what the next boot owes stay (R465, R486,
R522, R548). -/
def Lwd.cold (l : Lwd) : Lwd :=
  { Lwd.reset with ms := l.ms, lk := l.lk, phase := l.phase, boots := l.boots, bootCause := l.bootCause, tripOwed := l.tripOwed,
                   leakOwed := l.leakOwed,
                   st := if l.st = .off then .off else .active }

/-- The leeward controller after PERST#: its RWS fields are reset (R486). -/
def Lwd.perst (l : Lwd) : Lwd := { l with filters := [], drainAfterWake := false, st := if l.st = .off then .off else .active }

/-- The boot starts at the later of its start conditions (R487, R534, R540). -/
def Dev.tryBoot (d : Dev) : Dev :=
  let p := d.pins
  if d.boot = .held ∧ p.leewardRail ∧ p.mainGood ∧ !p.undervolt ∧ !p.resetN ∧ !p.perst then
    { d with boot := .booting p.coldPending p.pendingCause, pins := { p with coldPending := false } }
  else d

/-- A cold reset by a cause of R522, and the boot where nothing holds it (R486, R487). THERMTRIP_N is released (R548). -/
def Dev.coldReset (d : Dev) (cause : Nat) : Dev :=
  let trip := d.pins.thermtrip
  let d := d.resetMain
  let d : Dev := { d with run := 0, lwd := d.lwd.cold,
                          pins := { d.pins with coldPending := true, pendingCause := cause, thermtrip := false } }
  let d := if trip then d.emit (.thermtrip false) else d
  d.tryBoot

/-- The main domain is held in reset until power is good again (R533). -/
def Dev.holdMain (d : Dev) (under : Bool) : Dev :=
  let d := d.resetMain
  { d with pins := { d.pins with coldPending := true, pendingCause := 0, mainGood := under, undervolt := under },
           lwd := { d.lwd with st := if d.lwd.st = .off then .off else .active } }

/-- PERST# (R486). -/
def Dev.perstReset (d : Dev) : Dev :=
  let d := d.resetMain
  let p := d.pins
  { d with lwd := d.lwd.perst,
           pins := { p with perst := true, pendingCause := if p.coldPending then p.pendingCause else 3 } }

/-- A row goes out of service (R158): the new map bypasses it; two bypassed rows set SPARES_EXHAUSTED. -/
def Dev.mapOut (d : Dev) (core row : Nat) : Dev :=
  let fused := (d.sec.fused[core]?).getD []
  let c := d.core core
  let used := (fused.length + c.bypass.length)
  if 2 ≤ used ∨ fused.contains row ∨ c.bypass.any (·.1 == row) then d
  else
    let d := d.modCore core fun c => { c with mem := CoreMem.zero, bypass := c.bypass ++ [(row, true)],
                                              suspect := if c.suspect = some row then none else c.suspect }
    let d : Dev := { d with sec := { d.sec with dirty := true } }
    if used = 1 then d.health 0x02 2 (hUnit 1 core) 0 [row] else d

/-! ### Boot -/

/-- Soft repairs that this boot hardens: cold reset only, two rows per stack (R493). -/
def harden : List RowRepair → List (Nat × Nat) → List RowRepair
  | [], _ => []
  | r :: rs, n =>
    let k := ((n.find? (·.1 == r.pc / 32)).map (·.2)).getD 0
    if !r.hard && k < 2 then
      { r with hard := true } :: harden rs ((r.pc / 32, k + 1) :: n.filter (·.1 != r.pc / 32))
    else r :: harden rs n

/-- Firmware runs: what ST2 does after a successful boot or a recovery (R493, R496, R499, R502, R522). -/
def Dev.firmwareUp (d : Dev) (r : Running) (fallback cold : Bool) (cause : Nat) : Dev :=
  let s := d.sec
  let store := s.storeGoverns
  let body := (store.map (·.2.2)).getD []
  let s1 := s.blow r
  let other := s1.headCheck (s1.bankHead (1 - r.bank)) == 0 && bodyOk (s1.bankHead (1 - r.bank)) (s1.bankBody (1 - r.bank))
  let reps := storeReps body
  let reps := if cold then harden reps [] else reps
  let life := if store.isSome then storeLife body else List.replicate 16 0
  let life := bump (if cause = 3 then 2 else 1) 1 (if d.lwd.tripOwed then bump 3 1 life else life)
  let maps := storeMaps body
  let leak := d.lwd.leakOwed
  let d : Dev := { d with
    boot := .done
    clk := { d.clk with pllLock := true }
    sec := { s1 with running := some r, fallback := fallback, otherValid := other, recovery := false, life := life,
                     storeSeq := (store.map (·.2.1)).getD 0, storeBank := (store.map (·.1)).getD 1, bootTick := d.ticks,
                     dirty := true }
    mem := { d.mem with repairs := reps, migrated := if store.isSome then storeMig body else [] }
    cores := (List.zip (upTo 6) d.cores).map fun q =>
      { q.2 with mem := CoreMem.zero, bypass := (((maps[q.1]?).getD []).map fun x => (x, true)) }
    lwd := { d.lwd with
      st := .active, boots := satAdd 32 d.lwd.boots 1, bootCause := cause, tripOwed := false, leakOwed := false } }
  let d := if leak then d.health 0x0D 2 (hUnit 0 0) 0 [] else d
  let d := if fallback then d.health 0x10 1 (hUnit 0 0) 0 [r.bank] else d
  let d := if d.link.degraded then d.health 0x09 1 (hUnit 0 0) 0 [] else d
  let d := if store.isNone then d.health 0x16 1 (hUnit 0 0) 0 [] else d
  let revoked := (upTo 4).filter fun i => bitAt r.revoke i && i != r.slot && ((s.slots[i]?).any fun k => !(k.rev0 && k.rev1))
  let d := revoked.foldl (fun d i => d.health 0x11 0 (hUnit 0 i) 0 [i]) d
  let d := if s.rollbackMin < s1.rollbackMin then d.health 0x12 0 (hUnit 0 0) 0 [s1.rollbackMin] else d
  d

/-- BOOT_COMPLETE: the ROM's choice, recovery mode, or a park where TRIPPED stops a PERST# boot (R487, R492 to R494). -/
def Dev.bootDone (d : Dev) : Dev :=
  match d.boot with
  | .booting cold cause =>
    if d.lwd.tripped && !cold then
      { d with boot := .parked, lwd := { d.lwd with st := .leeward, boots := satAdd 32 d.lwd.boots 1, bootCause := cause } }
    else
      match d.sec.choose with
      | some (b, fb) =>
        let owed := d.lwd.tripOwed
        let d := d.firmwareUp (mkRunning b false (d.sec.bankHead b) (d.sec.bankBody b)) fb cold cause
        if owed then d.health 0x15 2 (hUnit 0 0) 0 [] else d
      | none =>
        { d with boot := .recovery, sec := { d.sec with recovery := true },
                 clk := { d.clk with pllLock := true },
                 lwd := { d.lwd with st := .active, boots := satAdd 32 d.lwd.boots 1, bootCause := cause } }
  | _ => d

/-! ### Firmware commands (R498, R506, R510) -/

/-- A SEC command ends at once with a result. -/
def Dev.secEnds (d : Dev) (tag res check detail : Nat) : Dev :=
  { d with sec := { d.sec with result := res, tag := tag, check := check, detail := detail } }

/-- The SEC page takes a command (R494, R507, R510): while one is in progress another is dropped, but an UPDATE during
SELFTEST or DUMP ends with STATE. -/
def Dev.secCmd (d : Dev) (op tag : Nat) (k : Dev → Dev) : Dev :=
  match d.sec.cmd with
  | some c =>
    if op = 1 ∧ (c.op = 3 ∨ c.op = 4) then d.secEnds tag 4 0 0
    else ({ d with sec := { d.sec with dropped := true } } : Dev).fire .secDropped
  | none => if d.boot = .recovery ∧ op != 2 ∧ op != 4 then d.secEnds tag 4 0 0 else k d

def Dev.secStart (d : Dev) (c : SecCmd) : Dev := { d with sec := { d.sec with cmd := some c } }

/-- SEC_CMD_ADDR and SEC_CMD_LEN describe an image. -/
def Sec.imageSpan (s : Sec) : Bool := s.addr % 4096 == 0 && 0x1000 ≤ s.len && s.len ≤ 0x1000 + 6 * 2 ^ 20

/-- UPDATE or RECOVER: fetch, checks, programming under way (R494, R498). `image` is what host memory holds; none is a
failed fetch. -/
def Dev.imageCmd (d : Dev) (op tag : Nat) (image : Option (List Byte)) : Dev :=
  if op = 2 ∧ d.boot ≠ .recovery then d.secEnds tag 4 0 0
  else if !d.sec.imageSpan then d.secEnds tag 1 0 0
  else
    match image with
    | none => d.secStart { op := op, tag := tag, image := [], result := 5, check := 0, detail := 0 }
    | some bs =>
      let img := fit d.sec.len bs
      let c := d.sec.imageCheck img (op == 1)
      if c != 0 then
        d.secStart { op := op, tag := tag, image := [], result := if c = 5 ∨ c = 7 then 3 else 2, check := c, detail := 0 }
      else
        let b := if op = 2 then 0 else 1 - ((d.sec.running.map (·.bank)).getD 1)
        -- the header stands and the body is erased until programming ends (R493's example, R507)
        let d : Dev := { d with sec := d.sec.program b (img.take 0x1000) }
        d.secStart { op := op, tag := tag, image := img, result := 0, check := 0, detail := 0 }

/-- `n` free bytes. -/
def freeBytes : Nat → Dev → List Byte × Dev
  | 0, d => ([], d)
  | n + 1, d =>
    let r := freeBytes n d
    let v := drawFree r.2
    (r.1 ++ le 1 v.1, v.2)

/-- SELFTEST (R506): failing rows are mapped out; the result block's layout is not stated, so its bytes are free. Units
0 to 203 are physical row `u % 34` of core `u / 34`; the others are SRAMs and patterns. -/
def Dev.selfTest (d : Dev) (tag : Nat) (bad : List Nat) : Dev :=
  if d.charter.st ≠ .empty then d.secEnds tag 4 0 0
  else if d.sec.addr % 4096 ≠ 0 then d.secEnds tag 1 0 0
  else
    let d := bad.foldl (fun d u => if u < 204 then d.mapOut (u / 34) (u % 34) else d) d
    let r := freeBytes 4096 d
    (r.2.post 0 d.sec.addr r.1).secStart
      { op := 3, tag := tag, image := [], result := 0, check := 0, detail := bad.length }

/-- DUMP (R506): steward state and logs, then the last health records, up to SEC_CMD_LEN bytes. -/
def Dev.dumpCmd (d : Dev) (tag : Nat) (stewards : List Byte) : Dev :=
  if d.sec.addr % 4096 ≠ 0 then d.secEnds tag 1 0 0
  else
    let bs := (stewards ++ d.sec.recent.flatMap id).take d.sec.len
    (d.post 0 d.sec.addr bs).secStart { op := 4, tag := tag, image := [], result := 0, check := 0, detail := bs.length }

/-- The command in progress ends (R494, R498, R510). -/
def Dev.secDone (d : Dev) : Dev :=
  match d.sec.cmd with
  | none => d
  | some c =>
    let d : Dev := { d with sec := { d.sec with cmd := none } }
    let d := d.secEnds c.tag c.result c.check c.detail
    if c.result ≠ 0 then d
    else if c.op = 1 then
      { d with sec := d.sec.program (1 - ((d.sec.running.map (·.bank)).getD 1)) c.image }
    else if c.op = 2 then
      let d : Dev := { d with sec := d.sec.program 0 c.image }
      let d := d.firmwareUp (mkRunning 0 true (fit 512 c.image) (c.image.drop 0x1000)) false false d.lwd.bootCause
      { d with lwd := { d.lwd with boots := d.lwd.boots - 1 } }
    else d

/-- GLB_RESET (R523): the one valid 64-bit write of the PF starts a cold reset; any other is refused. -/
def Dev.glbReset (d : Dev) (f : Nat) (h : Half) (v : Nat) : Dev :=
  if f ≠ 0 then d
  else if h = .full ∧ v = 0x434F4C4400000001 then d.coldReset 2
  else ({ d with resetRefused := true } : Dev).fire .resetRefused

/-- A write of SEC_HEALTH_RING (R501, R511). -/
def Dev.healthRing (d : Dev) (h : Half) (v : Nat) : Dev :=
  let d : Dev := { d with sec := { d.sec with ring := rwWrite h 0x001FFFFFFFFFFC00 d.sec.ring v } }
  d.flushHealth

/-! ### Meanings: pins and resets -/

/-- LEEWARD_RAIL_UP (R532): the responder answers from a free time within 5 ms (R488), and RESET_N is sampled (R548). -/
def execLeewardRailUp (s : State) : Host.Outcome State Fault Refusal :=
  whenDue "LEEWARD_RAIL_UP" (!s.dev.pins.leewardRail) s fun d =>
    let r := drawFree d
    let d : Dev := { r.2 with pins := { d.pins with leewardRail := true }, lwd := { Lwd.reset with st := .off },
                              vpt := { d.vpt with ready := d.ticks + r.1 % (5 * msTicks + 1) } }
    if d.pins.resetN then d.coldReset 1 else d

/-- LEEWARD_RAIL_DOWN (R467, R533). -/
def execLeewardRailDown (s : State) : Host.Outcome State Fault Refusal :=
  whenDue "LEEWARD_RAIL_DOWN" s.dev.pins.leewardRail s fun d =>
    let d := d.holdMain false
    { d with pins := { d.pins with leewardRail := false }, lwd := { Lwd.reset with st := .off },
             vpt := Vpt.reset }

/-- PWRGOOD_MAIN_ASSERT (R487, R532, R533). -/
def execPwrgoodMainAssert (s : State) : Host.Outcome State Fault Refusal :=
  whenDue "PWRGOOD_MAIN_ASSERT" (!s.dev.pins.mainGood && s.dev.pins.leewardRail) s fun d =>
    ({ d with pins := { d.pins with mainGood := true, undervolt := false } } : Dev).coldReset 0

/-- PWRGOOD_MAIN_DEASSERT (R533, R534). -/
def execPwrgoodMainDeassert (s : State) : Host.Outcome State Fault Refusal :=
  whenDue "PWRGOOD_MAIN_DEASSERT" s.dev.pins.mainGood s fun d => d.holdMain false

/-- RAIL_UNDERVOLTAGE (R534). -/
def execRailUndervoltage (leeward : Bool) (s : State) : Host.Outcome State Fault Refusal :=
  if leeward then
    whenDue "RAIL_UNDERVOLTAGE" s.dev.pins.leewardRail s fun d => { d with lwd := { Lwd.reset with st := d.lwd.st } }
  else
    whenDue "RAIL_UNDERVOLTAGE" (s.dev.pins.mainGood && !s.dev.pins.undervolt) s fun d => d.holdMain true

/-- RESET_N_ASSERT (R486, R540): before the leeward rails are up it has no effect yet (R548). -/
def execResetNAssert (s : State) : Host.Outcome State Fault Refusal :=
  whenDue "RESET_N_ASSERT" (!s.dev.pins.resetN) s fun d =>
    let d : Dev := { d with pins := { d.pins with resetN := true } }
    if d.pins.leewardRail then d.coldReset 1 else d

/-- RESET_N_DEASSERT (R487, R540). -/
def execResetNDeassert (s : State) : Host.Outcome State Fault Refusal :=
  whenDue "RESET_N_DEASSERT" s.dev.pins.resetN s fun d =>
    ({ d with pins := { d.pins with resetN := false } } : Dev).tryBoot

/-- PERST_ASSERT (R486). -/
def execPerstAssert (s : State) : Host.Outcome State Fault Refusal :=
  whenDue "PERST_ASSERT" (!s.dev.pins.perst) s Dev.perstReset

/-- PERST_DEASSERT (R487). -/
def execPerstDeassert (s : State) : Host.Outcome State Fault Refusal :=
  whenDue "PERST_DEASSERT" s.dev.pins.perst s fun d =>
    ({ d with pins := { d.pins with perst := false } } : Dev).tryBoot

/-- GLOBAL_COLD_RESET (R523): a 64-bit write of GLB_RESET by the PF. -/
def execGlobalColdReset (value : Reg) (s : State) : Host.Outcome State Fault Refusal :=
  always s fun d => d.access 0 .glb fun d => d.glbReset 0 .full value.toNat

/-- The boot is under way, and has its reference (R548). -/
def dueBoot (d : Dev) : Bool := d.inBoot && d.clk.refPresent

/-- BOOT_COMPLETE (R492 to R496, R522). -/
def execBootComplete (s : State) : Host.Outcome State Fault Refusal :=
  whenDue "BOOT_COMPLETE" (dueBoot s.dev) s Dev.bootDone

/-! ### Meanings: firmware, stewards, health -/

/-- UPDATE (R498, R510). -/
def execUpdate (tag : Nat) (image : Option (List Byte)) (s : State) : Host.Outcome State Fault Refusal :=
  always s fun d => d.access 0 .sec fun d => d.secCmd 1 (tag % 256) fun d => d.imageCmd 1 (tag % 256) image

/-- RECOVER (R494, R510). -/
def execRecover (tag : Nat) (image : Option (List Byte)) (s : State) : Host.Outcome State Fault Refusal :=
  always s fun d => d.access 0 .sec fun d => d.secCmd 2 (tag % 256) fun d => d.imageCmd 2 (tag % 256) image

/-- SELFTEST (R506). -/
def execSelftest (tag : Nat) (bad : List Nat) (s : State) : Host.Outcome State Fault Refusal :=
  always s fun d => d.access 0 .sec fun d => d.secCmd 3 (tag % 256) fun d => d.selfTest (tag % 256) bad

/-- DUMP (R506). -/
def execDump (tag : Nat) (stewards : List Byte) (s : State) : Host.Outcome State Fault Refusal :=
  always s fun d => d.access 0 .sec fun d => d.secCmd 4 (tag % 256) fun d => d.dumpCmd (tag % 256) stewards

/-- SEC_COMMAND_DONE is due: a command runs and ST2 does not restart (R505, R510). -/
def dueSecDone (d : Dev) : Bool := d.sec.cmd.isSome && !d.sec.down.contains 2

/-- SEC_COMMAND_DONE (R498, R510). -/
def execSecCommandDone (s : State) : Host.Outcome State Fault Refusal :=
  whenDue "SEC_COMMAND_DONE" (dueSecDone s.dev) s Dev.secDone

/-- STEWARD_WATCHDOG (R505, R507): the steward restarts; an UPDATE that ST2 was running ends with FLASH_ERROR. -/
def execStewardWatchdog (steward : Nat) (s : State) : Host.Outcome State Fault Refusal :=
  whenDue "STEWARD_WATCHDOG" (s.dev.mainUp && steward < 3 && !s.dev.sec.down.contains steward) s fun d =>
      let d : Dev := { d with sec := { d.sec with
        down := d.sec.down ++ [steward], restarts := satAdd 64 d.sec.restarts 1
        cmd := d.sec.cmd.map fun c => if steward = 2 ∧ c.op = 1 then { c with result := 6 } else c } }
      d.health 0x13 1 (hUnit 6 steward) 0 []

/-- A request for the firmware's SPDM responder: answered, or kept while ST2 restarts (R504, R507). -/
def Dev.spdm (d : Dev) (q : SpdmReq × List Byte) : Dev :=
  if d.sec.down.contains 2 then { d with sec := { d.sec with spdmWaits := d.sec.spdmWaits ++ [q] } }
  else d.emit (.doe (d.spdmAnswer q.1 q.2))

/-- STEWARD_RESTART_DONE (R505): ST2 answers what has waited for it (R507). -/
def execStewardRestartDone (steward : Nat) (s : State) : Host.Outcome State Fault Refusal :=
  whenDue "STEWARD_RESTART_DONE" (s.dev.sec.down.contains steward) s fun d =>
    let waits := if steward = 2 then d.sec.spdmWaits else []
    let d : Dev := { d with sec := { d.sec with
      down := d.sec.down.filter (· != steward), spdmWaits := if steward = 2 then [] else d.sec.spdmWaits } }
    waits.foldl Dev.spdm d

/-- HEALTH_STORE_WRITE (R499, R500). -/
def execHealthStoreWrite (s : State) : Host.Outcome State Fault Refusal :=
  whenDue "HEALTH_STORE_WRITE" (s.dev.mainUp && !s.dev.sec.down.contains 2) s Dev.storeWrite

/-- HEALTH_RING_SET (R501, R511). -/
def execHealthRingSet (half : Half) (value : Reg) (s : State) : Host.Outcome State Fault Refusal :=
  always s fun d => d.access 0 .sec fun d => d.healthRing half value.toNat

/-- SPDM_REQUEST (R504): answered by the firmware on the PF's mailbox. -/
def execSpdmRequest (request : SpdmReq) (nonce : List Byte) (s : State) : Host.Outcome State Fault Refusal :=
  always s fun d => if d.mainUp then d.spdm (request, nonce) else d

end Sys2Proof.Machine
end

