-- ==== Sys2Proof/Machine/Charters.lean ====
section
/-! DEFINITION. Charters: the image and its checks, the three states, SEAL and UNLOAD (R345 to R356, R378, R397, R398,
R407, R411, R419). -/

namespace Sys2Proof.Machine

/-- A section of the image as it stands: type, version, body, its padding (R345). -/
structure RawSection where
  type : Nat
  version : Nat
  body : List Byte
  pad : List Byte
  deriving DecidableEq, Repr

/-- Cuts the bytes between header and signature into sections; none where they do not tile it exactly. -/
def cutSections : Nat → List Byte → Option (List RawSection)
  | 0, bs => if bs.isEmpty then some [] else none
  | n + 1, bs =>
    let len := at_ bs 4 4
    let padded := roundUp len 8
    if bs.length < 8 + padded then none
    else
      match cutSections n (bs.drop (8 + padded)) with
      | some l => some ({ type := at_ bs 0 2, version := at_ bs 2 2, body := (bs.drop 8).take len,
                          pad := ((bs.drop 8).take padded).drop len } :: l)
      | none => none

/-- The image in the staging area, by its LENGTH. -/
def stagedImage (m : Mem) : List Byte := memBytes m 0 (min (memNat m 8 4) 0x100000)

/-- Check 1 of R356: the sections, where it passes. -/
def charterSections (img : List Byte) : Option (List RawSection) :=
  let len := at_ img 8 4
  let sig := at_ img 0xC 4
  if at_ img 0 4 = 0x48434654 ∧ at_ img 4 2 = 1 ∧ len ≤ 0x100000 ∧ len = img.length ∧ 160 ≤ len ∧ sig % 8 = 0 ∧ sig = len - 96
  then cutSections (at_ img 6 2) ((img.take sig).drop 0x40)
  else none

/-- Entries of `n` bytes. -/
def entries (n : Nat) (body : List Byte) : List (List Byte) := cut n (body.length / n) body

def allZero (bs : List Byte) : Bool := bs.all (· == 0)

/-- Entry size of a section type; 0 where the type is unknown (R346). -/
def entrySize (t : Nat) : Nat :=
  match t with
  | 1 => 64
  | 2 => 32
  | 3 => 8
  | 4 => 32
  | 5 => 80
  | 6 => 112
  | 7 => 24
  | _ => 0

/-- How many entries a section may hold. -/
def entryCountOk (t n : Nat) : Bool :=
  match t with
  | 1 => 1 ≤ n && n ≤ 6
  | 2 => 1 ≤ n && n ≤ 7
  | 6 => n == 1
  | 7 => n == 1
  | _ => true

/-- The key a section makes unique (R356). -/
def entryKey (t : Nat) (e : List Byte) : Nat :=
  match t with
  | 1 => at_ e 0 1
  | 2 => at_ e 0 1
  | 3 => at_ e 0 1
  | 4 => at_ e 0 2
  | 5 => at_ e 0 2
  | _ => 0

/-- Every field in its range, every reserved byte 0 (check 3 of R356; R350 to R354, R397, R398, R419). -/
def entryOk (t : Nat) (e : List Byte) : Bool :=
  let f := fun o n => at_ e o n
  match t with
  | 1 =>
    f 0 1 ≤ 5 && f 1 1 ≤ 6 && 1 ≤ f 2 1 && f 2 1 < 64 && f 3 1 == 0 && f 4 2 % 64 == 0 && 64 ≤ f 4 2 && f 4 2 ≤ 640 &&
    1 ≤ f 6 2 && f 6 2 ≤ 4096 && 1 ≤ f 0x10 4 && f 0xC 4 + f 0x10 4 ≤ 65536 && f 0x18 8 == 0
  | 2 =>
    f 0 1 ≤ 6 && f 1 1 == 0 && f 4 2 ≤ 16384 && f 2 2 + f 4 2 ≤ 16384 && f 6 2 + f 8 2 ≤ 65536 && f 0xA 2 == 0 &&
    f 0xC 4 < 2 ^ 20 && f 0x10 4 ≤ 2 ^ 20 && f 0xC 4 + f 0x10 4 ≤ 2 ^ 20 && f 0x14 4 ≤ 65536 && f 0x1C 4 == 0
  | 3 => f 0 1 ≤ 5 && 1 ≤ f 1 1 && f 1 1 ≤ 16 && allZero (e.drop 2)
  | 4 =>
    let k := f 0 1
    let cap := if k = 5 then f 4 4 * 8 else f 8 4
    k ≤ 5 && (match k with | 0 => f 1 1 ≤ 7 | 4 => f 1 1 == 0 | 5 => f 1 1 ≤ 6 | _ => f 1 1 ≤ 5) && f 2 2 == 0 &&
    f 4 4 % 4 == 0 && 4 ≤ f 4 4 && f 4 4 ≤ 131072 && (k != 4 || f 4 4 == 64) && (k != 5 || f 8 4 == 0) &&
    ((k == 1 || k == 2) || f 0xC 2 == 0) && ((1 ≤ k && k ≤ 3) || f 0xE 2 == 0) &&
    f 0x18 4 < f 0x10 4 && f 0x10 4 < f 0x14 4 && f 0x14 4 ≤ cap && f 0x1C 4 == 0 &&
    (k != 1 || (1 ≤ f 0xC 2 && 2 ≤ f 0xE 2)) && (k != 2 || (1 ≤ f 0xC 2 && 1 ≤ f 0xE 2)) &&
    ((k != 1 && k != 2) || f 0xC 2 + f 0xE 2 ≤ f 8 4)
  | 5 =>
    f 0 2 ≤ 4095 && f 2 2 < 16384 && f 4 1 ≤ 3 && 3 ≤ f 5 1 && f 5 1 ≤ 16 && f 0xC 4 == 0 &&
    allZero (e.drop (0x10 + 4 * f 5 1))
  | 6 => f 0 1 ≤ 1 && f 1 1 ≤ 16 && allZero ((e.drop 2).take 6) && f 0xE 2 == 0
  | 7 =>
    10 ≤ f 0 1 && f 0 1 ≤ 20 && f 0 1 + 10 ≤ f 1 1 && f 1 1 ≤ 80 && 6 ≤ f 2 1 && f 2 1 ≤ 96 && f 3 1 ≤ 8 && f 4 4 == 0 &&
    (upTo 8).all fun i => if i < f 3 1 then f (8 + 2 * i) 2 < 128 else f (8 + 2 * i) 2 == 0xFFFF
  | _ => false

/-- A failure: result, section, entry (R356, R378). -/
abbrev CFail := Nat × Nat × Nat

/-- The first position a test fails at, in a list. -/
def firstFail {α : Type} (bad : Nat → α → Bool) : Nat → List α → Option Nat
  | _, [] => none
  | i, x :: xs => if bad i x then some i else firstFail bad (i + 1) xs

/-- Check 3 within one section. -/
def sectionFail (seen : List Nat) (s : RawSection) : Option CFail :=
  let sz := entrySize s.type
  let es := entries sz s.body
  if sz = 0 ∨ seen.contains s.type ∨ s.version ≠ 1 then some (3, s.type, 0)
  else
    match firstFail (fun i e => !entryOk s.type e ||
        (es.take i).any fun o => entryKey s.type o == entryKey s.type e && s.type != 6 && s.type != 7) 0 es with
    | some i => some (3, s.type, i)
    | none =>
      if s.body.length % sz ≠ 0 ∨ !entryCountOk s.type es.length ∨ !allZero s.pad then some (3, s.type, es.length) else none

def sectionsFail : List Nat → List RawSection → Option CFail
  | _, [] => none
  | seen, s :: ss =>
    match sectionFail seen s with
    | some f => some f
    | none => sectionsFail (s.type :: seen) ss

/-- The entries of a section type; none of them where the section is absent. -/
def bodyOf (l : List RawSection) (t : Nat) : List (List Byte) :=
  ((l.find? (·.type == t)).map fun s => entries (entrySize t) s.body).getD []

/-- Something required is absent (R346, R356, R398). -/
def absentFail (l : List RawSection) : Option CFail :=
  match [1, 2, 4].find? fun t => !l.any (·.type == t) with
  | some t => some (3, t, 0)
  | none =>
    let ds := bodyOf l 4
    let has := fun k i => ds.any fun e => at_ e 0 1 == k && at_ e 1 1 == i
    if !ds.any (fun e => at_ e 0 1 == 0) || (bodyOf l 1).any (fun p => !has 1 (at_ p 0 1) || !has 2 (at_ p 0 1)) then
      some (3, 4, ds.length)
    else none

/-- Check 3 of R356. -/
def rangeFail (img : List Byte) (l : List RawSection) : Option CFail :=
  if !allZero ((img.drop 0x18).take 40) then some (3, 0, 0)
  else
    match sectionsFail [] l with
    | some f => some f
    | none => absentFail l

/-- The charter that checked sections describe. -/
def mkCharter (img : List Byte) (l : List RawSection) : Charter :=
  let mem := (bodyOf l 7).head?
  { id := at_ img 0x10 8, digest := sha384 (img.take (at_ img 0xC 4)),
    parts := (bodyOf l 1).map fun e =>
      { id := at_ e 0 1, owner := at_ e 1 1, mask := at_ e 2 1, b := at_ e 4 2, maxCtx := at_ e 6 2, ssmKib := at_ e 8 4,
        wmFirst := at_ e 0xC 4, wmCount := at_ e 0x10 4, priv := at_ e 0x14 4, pcs := setBits 256 (at_ e 0x20 32) },
    funcs := (bodyOf l 2).map fun e =>
      { fn := at_ e 0 1, streamFirst := at_ e 2 2, streamCount := at_ e 4 2, routeFirst := at_ e 6 2,
        routeCount := at_ e 8 2, queueFirst := at_ e 0xC 4, queueCount := at_ e 0x10 4, quota := at_ e 0x14 4,
        commonMib := at_ e 0x18 4 },
    mesh := (bodyOf l 3).map fun e => (at_ e 0 1, at_ e 1 1),
    depots := (bodyOf l 4).map fun e =>
      { kind := at_ e 0 1, index := at_ e 1 1, bufKib := at_ e 4 4, count := at_ e 8 4, minA := at_ e 0xC 2,
        minB := at_ e 0xE 2, hw1 := at_ e 0x10 4, hw2 := at_ e 0x14 4, hyst := at_ e 0x18 4 },
    zones := (bodyOf l 5).map fun e =>
      { id := at_ e 0 2, stream := at_ e 2 2, slot := at_ e 4 1,
        verts := (upTo (at_ e 5 1)).map fun i => (at_ e (0x10 + 4 * i) 2, at_ e (0x12 + 4 * i) 2),
        threshold := at_ e 6 2, classes := at_ e 8 4 },
    port := (bodyOf l 6).head?.map fun e =>
      { enable := at_ e 0 1 == 1, mac := (e.drop 8).take 6,
        allow := (upTo (at_ e 1 1)).map fun i => (e.drop (16 + 6 * i)).take 6 },
    retrainMs := (mem.map fun e => at_ e 0 1).getD 20, forceMs := (mem.map fun e => at_ e 1 1).getD 80,
    scrubHours := (mem.map fun e => at_ e 2 1).getD 24,
    spares := (mem.map fun e => (upTo (at_ e 3 1)).map fun i => at_ e (8 + 2 * i) 2).getD [] }

/-- Two ranges given by first and count meet. -/
def rangesMeet (a n b m : Nat) : Bool := 0 < n && 0 < m && overlaps a (a + n) b (b + m)

/-- Check 4 of R356, with R407: entry by entry, the later of two that conflict. -/
def conflictFail (c : Charter) : Option CFail :=
  let ps := c.parts
  let fs := c.funcs
  let defined := fun p => ps.any (·.id == p)
  let badPart := fun i (p : PartCfg) =>
    (ps.take i).any (fun q => p.mask &&& q.mask != 0 || p.pcs.any q.pcs.contains ||
      rangesMeet p.wmFirst p.wmCount q.wmFirst q.wmCount || (p.owner != 0 && p.owner == q.owner)) ||
    p.wmCount < p.priv || !fs.any (·.fn == p.owner) || p.pcs.any (fun x => !p.pcs.contains (x ^^^ 1)) ||
    p.pcs.any fun x => c.spares.contains (x / 2)
  let badFn := fun i (f : FuncCfg) =>
    (fs.take i).any fun g => rangesMeet f.streamFirst f.streamCount g.streamFirst g.streamCount ||
      rangesMeet f.routeFirst f.routeCount g.routeFirst g.routeCount ||
      rangesMeet f.queueFirst f.queueCount g.queueFirst g.queueCount
  let badDepot := fun (_ : Nat) (x : DepotCfg) =>
    (1 ≤ x.kind && x.kind ≤ 3 && !defined x.index) || (x.kind == 5 && !fs.any (·.fn == x.index))
  let badZone := fun (_ : Nat) (z : Zone) =>
    !fs.any fun f => f.streamFirst ≤ z.stream && z.stream < f.streamFirst + f.streamCount
  match firstFail badPart 0 ps with
  | some i => some (4, 1, i)
  | none =>
    match firstFail badFn 0 fs with
    | some i => some (4, 2, i)
    | none =>
      match firstFail (fun _ (m : Nat × Nat) => !defined m.1) 0 c.mesh with
      | some i => some (4, 3, i)
      | none =>
        match firstFail badDepot 0 c.depots with
        | some i => some (4, 4, i)
        | none => (firstFail badZone 0 c.zones).map fun i => (4, 5, i)

/-- The pseudo-channels of the common pool (R407). -/
def commonPcs (c : Charter) : List Nat :=
  (upTo 256).filter fun x => !c.parts.any (·.pcs.contains x) && !c.spares.contains (x / 2)

/-- Bytes the common pool must hold (R351, R398, R422). -/
def commonNeed (c : Charter) : Nat :=
  sum (c.funcs.map fun f => f.commonMib * 2 ^ 20 + 64 * f.queueCount + 128 * f.streamCount + 65536 + 128 * f.routeCount) +
  sum (c.depots.map fun x =>
    match x.kind with
    | 0 => x.count * x.bufKib * 1024
    | 4 => x.count * x.bufKib * 1024
    | 5 => 2 * x.bufKib * 1024
    | _ => 0) +
  (if c.depots.any (·.kind == 5) then 0 else 2 * c.funcs.length * (65536 / c.funcs.length / 4 * 4) * 1024)

/-- Check 5 of R356, with R398, R407 and R411. -/
def limitFail (c : Charter) : Option CFail :=
  let ps := c.parts
  let fs := c.funcs
  let upto := fun {α : Type} (l : List α) (i : Nat) (g : α → Nat) => sum ((l.take (i + 1)).map g)
  let badPart := fun i (p : PartCfg) =>
    4096 < upto ps i (·.maxCtx) || 69632 < upto ps i (·.ssmKib) ||
    12 * p.pcs.length < (setBits 6 p.mask).length * p.b
  let badFn := fun i (f : FuncCfg) => 65536 < upto fs i (·.quota) || (f.fn != 0 && 65536 < f.queueCount)
  let badDepot := fun i (x : DepotCfg) =>
    (1 ≤ x.kind && x.kind ≤ 3 &&
      ((ps.find? (·.id == x.index)).any fun p =>
        p.pcs.length * 1207959552 < sum (((c.depots.take (i + 1)).filter fun y => y.index == x.index && 1 ≤ y.kind && y.kind ≤ 3).map
          fun y => y.count * y.bufKib * 1024))) ||
    65536 < upto c.depots i (fun y => if y.kind = 5 then y.bufKib else 0)
  match firstFail badPart 0 ps with
  | some i => some (5, 1, i)
  | none =>
    match firstFail badFn 0 fs with
    | some i => some (5, 2, i)
    | none =>
      match firstFail badDepot 0 c.depots with
      | some i => some (5, 4, i)
      | none =>
        if (commonPcs c).length < 32 then some (5, if c.spares.isEmpty then 1 else 7, 0)
        else if (commonPcs c).length * 1207959552 < commonNeed c then some (5, 2, c.funcs.length - 1)
        else none

/-- Check 2 of R356, R497: the signature verifies under a charter key of the running image. -/
def signatureOk (keys : List (List Byte)) (img : List Byte) : Bool :=
  let sig := at_ img 0xC 4
  keys.any fun k => ecdsaOk k (img.take sig) (img.drop sig)

/-- LOAD's checks in order (R356): the charter, or the first failure. -/
def loadCharter (keys : List (List Byte)) (img : List Byte) : Except CFail Charter :=
  match charterSections img with
  | none => .error (2, 0, 0)
  | some l =>
    if !signatureOk keys img then .error (1, 0, 0)
    else
      match rangeFail img l with
      | some f => .error f
      | none =>
        let c := mkCharter img l
        match conflictFail c with
        | some f => .error f
        | none =>
          match limitFail c with
          | some f => .error f
          | none => .ok c

/-! ### The states -/

/-- A pseudo-channel as migrations have moved it (R425). -/
def migrate (mig : List (Nat × Nat)) (pc : Nat) : Nat :=
  mig.foldl (fun pc g => if pc / 2 = g.1 then 2 * g.2 + pc % 2 else pc) pc

/-- A partition as the charter defines it; its registers stay (R350, R383). -/
def sealPart (c : Charter) (now : Nat) (p : Part) : Part :=
  match c.parts.find? (·.id == p.id) with
  | some x =>
    { p with
      defined := true, owner := x.owner, mask := x.mask, b := x.b, maxCtx := x.maxCtx, ssmKib := x.ssmKib,
      wmFirst := x.wmFirst, wmCount := x.wmCount, priv := x.priv,
      weight := ((c.mesh.find? (·.1 == p.id)).map (·.2)).getD 1
      granted := x.pcs.length * pcSize - partDepotBytes c p.id
      jobSeq := 0, wbNext := 1, dgNext := 0
      retrain := { lull := .none, lastTick := now, pending := false, nextRefresh := now + 5070 * mkTicks }
      forced := 0     -- retraining counts restart at SEAL (R426)
      list := [], mustered := [], resident := [] }
  | none => { p with defined := false, list := [], mustered := [], resident := [] }

/-- The verdict port takes its settings at SEAL: enabled where the section enables it, disabled without the section
(R307, R354, R355). -/
def Vpt.seal (v : Vpt) : Option PortCfg → Vpt
  | some c => { v with ctl := if c.enable then orBit v.ctl 0 else v.ctl, mac := c.mac, allow := c.allow }
  | none => { v with ctl := v.ctl &&& 6, mac := zeros 6, allow := [] }

/-- SEAL (R355): HBM stays closed until the zeroing ends. -/
def Dev.sealCharter (d : Dev) (c : Charter) : Dev :=
  let lists := (c.parts.map fun p => (p.id, p.pcs.map (migrate d.mem.migrated))) ++
    [(commonOwner, (commonPcs c).map (migrate d.mem.migrated))]
  { d with
    charter := { d.charter with st := .sealed }
    cores := d.cores.map fun x => { x with mem := CoreMem.zero, run := CoreRun.start, job := none }
    wmk := []
    trk := { d.trk with verdicts := [] }
    parts := d.parts.map (sealPart c d.ticks)
    depots := (c.parts.flatMap fun p => partDepots c p.id (p.pcs.length * pcSize)) ++ commonDepots c
    vpt := d.vpt.seal c.port
    mem := { d.mem with
      hbm := [], mirror := [], open_ := false, lists := lists
      spares := c.spares.filter fun x => !d.mem.migrated.any (·.2 == x) && !d.mem.migration.any (·.dst == x)
      commonRetrain := { lull := .none, lastTick := d.ticks, pending := false, nextRefresh := d.ticks + 5070 * mkTicks } } }

/-- Every partition is idle (R356). -/
def Dev.idle (d : Dev) : Bool :=
  d.video.streams.isEmpty && d.video.routes.all (fun r => !r.bound) && d.video.clips.all (·.ended.isSome) &&
  d.video.cropTasks.isEmpty &&
  d.ctxs.isEmpty && d.parts.all fun p => p.list.isEmpty && p.mustered.isEmpty

/-- UNLOAD (R355): partitions, grants and zones go. -/
def Dev.unloadCharter (d : Dev) : Dev :=
  { d with
    charter := { d.charter with st := .empty, cur := none }
    parts := d.parts.map fun p => { p with defined := false, resident := [] }
    depots := [], trk := { d.trk with verdicts := [] }
    mem := { d.mem with open_ := false, lists := [], spares := [] } }

/-- A charter command begins: BUSY with the outcome it will report (R378). -/
def Dev.charterBusy (d : Dev) (op tag : Nat) (r : CFail) : Dev :=
  { d with charter := { d.charter with
      busy := some { op := op, result := r.1, section_ := r.2.1, entry := r.2.2 }, tag := tag } }

/-- DSP_CHARTER_CMD (R355, R356, R378). -/
def Dev.charterCmd (d : Dev) (op tag : Nat) : Dev :=
  if d.charter.busy.isSome then ({ d with charter := { d.charter with dropped := true } } : Dev).fire .charterDropped
  else
    let state := d.charterBusy op tag (7, 0, 0)
    match op with
    | 1 =>
      if d.charter.st ≠ .empty then state
      else
        match loadCharter ((d.sec.running.map (·.charterKeys)).getD []) (stagedImage d.charter.staging) with
        | .ok c => ({ d with charter := { d.charter with st := .loaded, cur := some c } } : Dev).charterBusy 1 tag (0, 0, 0)
        | .error f => d.charterBusy 1 tag f
    | 2 =>
      match d.charter.st, d.charter.cur with
      | .loaded, some c => (d.sealCharter c).charterBusy 2 tag (0, 0, 0)
      | _, _ => state
    | 3 =>
      if d.charter.st ≠ .loaded then state
      else ({ d with charter := { d.charter with st := .empty, cur := none } } : Dev).charterBusy 3 tag (0, 0, 0)
    | 4 =>
      if d.charter.st ≠ .sealed then state
      else if d.idle then d.unloadCharter.charterBusy 4 tag (0, 0, 0)
      else d.charterBusy 4 tag (6, 0, 0)
    | _ => state

/-- The command in progress ends; HBM opens after SEAL's zeroing (R355, R378). -/
def Dev.charterDone (d : Dev) : Dev :=
  match d.charter.busy with
  | none => d
  | some r =>
    { d with
      charter := { d.charter with busy := none, result := r.result, section_ := r.section_, entry := r.entry }
      mem := { d.mem with open_ := d.mem.open_ || (r.op == 2 && r.result == 0) } }

/-- DSP_CHARTER_CMD belongs to the PF. -/
def charterAccess (op tag : Nat) (s : State) : Host.Outcome State Fault Refusal :=
  always s fun d => d.access 0 .rest fun d => d.charterCmd op (tag % 256)

/-! ### Meanings -/

/-- CHARTER_LOAD (R355, R356). -/
def execCharterLoad (tag : Nat) (s : State) : Host.Outcome State Fault Refusal := charterAccess 1 tag s

/-- CHARTER_SEAL (R355). -/
def execCharterSeal (tag : Nat) (s : State) : Host.Outcome State Fault Refusal := charterAccess 2 tag s

/-- CHARTER_DISCARD (R355). -/
def execCharterDiscard (tag : Nat) (s : State) : Host.Outcome State Fault Refusal := charterAccess 3 tag s

/-- CHARTER_UNLOAD (R355, R356). -/
def execCharterUnload (tag : Nat) (s : State) : Host.Outcome State Fault Refusal := charterAccess 4 tag s

/-- CHARTER_COMMAND_DONE (R378). -/
def execCharterCommandDone (s : State) : Host.Outcome State Fault Refusal :=
  whenDue "CHARTER_COMMAND_DONE" s.dev.charter.busy.isSome s Dev.charterDone

end Sys2Proof.Machine
end

