-- ==== Sys2Proof/Machine/Manifest.lean ====
section
/-! DEFINITION. Manifests: reading the image (R31, R32, R323, R324), the checks at dispatch (R49, R362) and the digests of
the image, the weights and the inputs (R31, R328). -/

namespace Sys2Proof.Machine

/-- A digest-point table entry with its window descriptor (R323, R324). -/
def readDig (img : Nat → Nat → List Byte) (table i : Nat) : Nat × DigOpen :=
  let e := img (table + 8 * i) 8
  let w := img (at_ e 0 4) 32
  (bits (at_ e 6 2) 0 3,
   { entry := i, layer := at_ e 4 2, base := at_ w 0 4, pitch := at_ w 4 4, rows := at_ w 8 2, fmt := at_ w 0xA 1,
     elems := at_ w 0xC 4, origin := at_ w 0x10 8, stride := at_ w 0x18 4,
     lr := if bitAt (at_ w 0xB 1) 7 then some (at_ w 0xB 1 % 8) else none, lrScale := at_ w 0x1C 4, dsum := 0, dxor := 0,
     count := 0 })

/-- A manifest as its bytes state it. Table counts above their limits are cut to them: such an image fails its check. -/
def readManifest (img : Nat → Nat → List Byte) (off : Nat) : Manifest :=
  let h := img 0 256
  let nShape := min (at_ h 0x28 2) 16
  let nDig := min (at_ h 0x2A 2) 4096
  let nGate := min (at_ h 0x2C 2) 64
  let nReg := min (at_ h 0x2E 2) 256
  let tab := fun (o n sz : Nat) => (upTo n).map fun i => img (at_ h o 4 + sz * i) sz
  let streams := (upTo 6).map fun i => (at_ h (0x40 + 8 * i) 4, at_ h (0x44 + 8 * i) 4)
  let digs := (upTo nDig).map (readDig img (at_ h 0x3C 4))
  let descs := (upTo nDig).map fun i => at_ (img (at_ h 0x3C 4 + 8 * i) 8) 0 4 + 32
  let ends := [256, at_ h 0x30 4 + 8 * nShape, at_ h 0x34 4 + 8 * nGate, at_ h 0x38 4 + 16 * nReg,
    at_ h 0x3C 4 + 8 * nDig] ++ streams.map (fun s => s.1 + 16 * s.2) ++ descs
  { off := off, cores := at_ h 6 1, batch := at_ h 7 1, planned := at_ h 8 8, reserve := at_ h 0x10 4,
    bandwidth := at_ h 0x14 2, cspBytes := at_ h 0x18 4, acmBytes := at_ h 0x1C 4, wmFirst := at_ h 0x20 4,
    wmCount := at_ h 0x24 4,
    shapes := (tab 0x30 nShape 8).map fun e => (at_ e 0 4, at_ e 4 4),
    gates := (tab 0x34 nGate 8).map fun e => (at_ e 0 6, at_ e 6 2),
    regions := (tab 0x38 nReg 16).map fun e => { base := at_ e 0 8, len := at_ e 8 6, kind := at_ e 14 2 },
    digs := digs, streams := streams.take (at_ h 6 1), digest := (h.drop 0x70).take 48,
    imageEnd := ends.foldl max 0 }

/-- The image of a manifest at `off` of a partition's granted HBM. -/
def Dev.image (d : Dev) (p : Part) (off a n : Nat) : List Byte := d.partRead p (off + a) n

/-- The manifest at an offset of a partition's granted HBM. -/
def Dev.manifest (d : Dev) (p : Part) (off : Nat) : Manifest := readManifest (d.image p off) off

/-- Check HEADER of R362: header, tables and streams well-formed (R31, R32, R323). -/
def headerOk (img : Nat → Nat → List Byte) (p : Part) (m : Manifest) : Bool :=
  let h := img 0 256
  m.off % 64 == 0 && at_ h 0 4 == 0x4D464654 && at_ h 4 2 == 2 && 1 ≤ m.cores && m.cores ≤ 6 &&
  [1, 2, 4, 8].contains m.batch && 1 ≤ m.planned && m.planned < 2 ^ 40 &&
  64 ≤ m.bandwidth && m.bandwidth ≤ 640 && m.bandwidth % 64 == 0 && at_ h 0x16 2 == 0 &&
  (h.drop 0xA0).all (· == 0) && m.cspBytes % 64 == 0 && m.acmBytes ≤ 2 * 2 ^ 20 &&
  at_ h 0x28 2 ≤ 16 && at_ h 0x2A 2 ≤ 4096 && at_ h 0x2C 2 ≤ 64 && 1 ≤ at_ h 0x2E 2 && at_ h 0x2E 2 ≤ 256 &&
  ((h.drop (0x40 + 8 * m.cores)).take (48 - 8 * m.cores)).all (· == 0) &&
  m.regions.all (fun r => r.kind ≤ 3) && m.off + m.imageEnd ≤ p.granted &&
  (List.zip (upTo m.digs.length) m.digs).all fun e =>
    let raw := img (at_ h 0x3C 4 + 8 * e.1) 8
    let w := img (at_ raw 0 4) 32
    let row := roundUp (ceilDiv (e.2.2.elems * fmtBits e.2.2.fmt) 8) 64
    at_ raw 0 4 % 32 == 0 && at_ raw 6 2 < 8 && e.2.1 < m.cores && e.2.2.base % 64 == 0 && e.2.2.pitch % 64 == 0 &&
    e.2.2.fmt < 16 && bits (at_ w 0xB 1) 3 4 == 0 && (e.2.2.rows ≤ 1 || row ≤ e.2.2.pitch)

/-- Waymarks of the shared part of a partition (R267, R350). -/
def Part.shared (p : Part) : Nat := p.wmCount - p.priv

/-- An index names a private waymark of the job (R267). -/
def Manifest.isPrivate (m : Manifest) (ix : Nat) : Bool := m.wmFirst ≤ ix && ix < m.wmFirst + m.wmCount

/-- Cores of a partition. -/
def Part.cores (p : Part) : List Nat := setBits 6 p.mask

/-- Check FIT of R362. -/
def fitOk (p : Part) (m : Manifest) : Bool :=
  m.cores ≤ p.cores.length && m.cspBytes ≤ 48 * 2 ^ 20 && m.acmBytes ≤ 2 * 2 ^ 20 &&
  m.wmFirst + m.wmCount ≤ p.wmCount && m.wmCount ≤ p.priv &&
  m.gates.all fun g => g.2 < p.shared && !m.isPrivate g.2

/-- Check REGIONS of R362; `bound` leaves out the BASE of KIND 0 and KIND 1 regions (R135, R294). -/
def regionsOk (p : Part) (bound : Bool) (m : Manifest) : Bool :=
  m.regions.all (fun r => (bound && r.kind ≤ 1) || r.base + r.len ≤ p.granted) && m.shapes.all fun s => s.1 ≤ s.2

/-- MANIFEST_DIGEST over the image with its own field taken as zero (R31). -/
def digestOk (img : Nat → Nat → List Byte) (m : Manifest) : Bool :=
  sha384 (img 0 0x70 ++ zeros 48 ++ img 0xA0 (m.imageEnd - 0xA0)) == m.digest

/-- The first failed check of R362 from HEADER on, 0 where all pass. `resident` keeps the digest's result (R49). -/
def Dev.manifestCheck (d : Dev) (p : Part) (bound resident : Bool) (off : Nat) : Nat :=
  let img := d.image p off
  let m := d.manifest p off
  if !headerOk img p m then 2
  else if m.bandwidth != p.b then 3
  else if !fitOk p m then 4
  else if !regionsOk p bound m then 5
  else if !resident && !digestOk img m then 6
  else if 32 < (m.regions.filter (·.kind == 0)).length then 7
  else 0

/-- The weight-set digest: SHA-384 over the KIND 3 regions in region-table order (R328). -/
def Dev.weightDigest (d : Dev) (p : Part) (m : Manifest) : List Byte :=
  sha384 ((m.regions.filter (·.kind == 3)).flatMap fun r => d.partRead p r.base r.len)

/-- The digest (SUM, XOR) of bytes as elements (R322, R328). -/
def byteDigest : Nat → List Byte → Nat × Nat → Nat × Nat
  | _, [], a => a
  | i, b :: bs, a =>
    let h := elemHash i b.toNat
    byteDigest (i + 1) bs ((a.1 + h) % 2 ^ 64, a.2 ^^^ h)

/-- A span of granted HBM was written from outside a job or by an STT: resident manifests whose image or weights it touches
lose their residence (R361). -/
def Dev.endResidence (d : Dev) (p lo hi : Nat) : Dev :=
  d.modPart p fun q => { q with resident := q.resident.filter fun r =>
    !(overlaps lo hi r.mf (r.mf + r.len) || r.weights.any fun w => overlaps lo hi w.1 (w.1 + w.2)) }

/-- A manifest becomes resident, or is the latest started again; the least recently started makes room (R361). -/
def Dev.makeResident (d : Dev) (p : Part) (m : Manifest) : List Byte × Dev :=
  match p.resident.find? (·.mf == m.off) with
  | some r =>
    (r.weightDigest, d.modPart p.id fun q => { q with resident := q.resident.filter (fun x => x.mf != m.off) ++ [r] })
  | none =>
    let wd := d.weightDigest p m
    let ws := (m.regions.filter (·.kind == 3)).map fun r => (r.base, r.len)
    let r : Resident := { mf := m.off, len := m.imageEnd, weights := ws, weightDigest := wd }
    (wd, d.modPart p.id fun q =>
      { q with resident := (if 64 ≤ q.resident.length then q.resident.drop 1 else q.resident) ++ [r] })

end Sys2Proof.Machine
end

