-- ==== Sys2Proof/Machine/Jobs.lean ====
section
/-! DEFINITION. Jobs in flight: job-local time (R34, R55, R56), waymarks (R267, R268), the rings of slips, digests and
waybills (R52, R327, R330), the ways a job ends (R35, R59, R369) and its reissue (R56, R57). -/

namespace Sys2Proof.Machine

/-! ### Job-local time -/

/-- Job-local ck of a schedule ck: abandoned attempts, the schedule, and the replay pauses met so far (R55, R56). -/
def Ctx.localCk (x : Ctx) (c : Nat) : Nat := x.base + c + sum ((x.pauses.filter (·.1 ≤ c)).map (·.2))

/-- The cores' issue states in slot order: on the cores, or in the save (R278). -/
def Dev.runs (d : Dev) (x : Ctx) : List CoreRun :=
  if x.cores.isEmpty then x.saved.map (·.run) else x.cores.map fun c => (d.core c).run

/-- The context that holds a core. -/
def Dev.ctxOf (d : Dev) (c : Nat) : Option Ctx := (d.core c).job.bind d.ctx?

/-! ### Waymarks -/

/-- A waymark (R267). -/
def Dev.wmkAt (d : Dev) (w : Nat) : Waymark := (d.wmk.find? (·.ix == w)).getD { ix := w, count := 0, counter := false }

/-- The device with a waymark replaced; only those that differ from reset are listed. -/
def Dev.putWmk (d : Dev) (m : Waymark) : Dev :=
  let rest := d.wmk.filter fun x => x.ix != m.ix
  { d with wmk := if m.count = 0 && !m.counter then rest else rest ++ [m] }

/-- Waymarks `[lo, hi)` at COUNT 0 with COUNTER clear. -/
def Dev.clearWmk (d : Dev) (lo hi : Nat) : Dev := { d with wmk := d.wmk.filter fun m => !(lo ≤ m.ix && m.ix < hi) }

/-- The device waymark an index of a job names (R267). -/
def Ctx.devWm (x : Ctx) (p : Part) (ix : Nat) : Nat :=
  if x.mf.isPrivate ix then x.wmBase + (ix - x.mf.wmFirst) else p.wmFirst + ix

/-- A wait is satisfied (R14, R268). -/
def wmSat (count value : Nat) : Bool := count == value || seqNewer 32 count value

/-- COUNT of a device waymark as the job's own WMW and CFA see it at a schedule ck (R268). -/
def Dev.countAt (d : Dev) (x : Ctx) (w ck : Nat) : Nat :=
  ((d.wmkAt w).count + sum ((x.adds.filter fun a => a.1 == w && a.2.2 ≤ ck).map (·.2.1))) % 2 ^ 32

/-- The instruction word at an index of a core slot's stream; none past its end (R245, R59). -/
def Dev.tileAt (d : Dev) (p : Part) (x : Ctx) (slot ip : Nat) : Option Nat :=
  let st := (x.mf.streams[slot]?).getD (0, 0)
  if ip < st.2 then some (ofLe (d.partRead p (x.mf.off + st.1 + 16 * ip) 16)) else none

/-- Every core of the job has reached one gate-table entry (R36). -/
def allAtGate (runs : List CoreRun) : Option Nat :=
  match runs with
  | [] => none
  | r :: _ =>
    match r.gate with
    | some g => if runs.all fun q => (q.gate.map (·.1)) == some g.1 then some g.1 else none
    | none => none

/-- The gate the job has reached is satisfied on every core (R36, R268). -/
def Dev.gateSat (d : Dev) (p : Part) (x : Ctx) : Bool :=
  let runs := d.runs x
  (allAtGate runs).isSome &&
  (List.zip (upTo runs.length) runs).all fun r =>
    match d.tileAt p x r.1 r.2.ip with
    | some w => wmSat (d.wmkAt (p.wmFirst + bits w 24 16)).count (bits w 40 32)
    | none => false

/-- The next place in the order in which becalmed contexts became runnable (R360). -/
def Dev.nextReady (d : Dev) : Nat := d.ctxs.foldl (fun a x => max a (x.readySeq + 1)) 0

/-- Becalmed contexts of a partition whose gate's waymark is now satisfied become runnable (R359, R367). -/
def Dev.wakeBlocked (d : Dev) (p : Nat) : Dev :=
  match d.part? p with
  | none => d
  | some q =>
    let n := d.nextReady
    { d with ctxs := d.ctxs.map fun x =>
        if x.entry.part == p && x.st == .becBlocked && d.gateSat q x then { x with st := .becReady, readySeq := n } else x }

/-- Waymark adds of a job that have become visible by a schedule ck reach the counts (R268). -/
def Dev.foldAdds (d : Dev) (j ck : Nat) : Dev :=
  match d.ctx? j with
  | none => d
  | some x =>
    let due := x.adds.filter fun a => a.2.2 ≤ ck
    let d := due.foldl (fun d a =>
      let m := d.wmkAt a.1
      d.putWmk { m with count := (m.count + a.2.1) % 2 ^ 32 }) d
    let d := d.modCtx j fun x => { x with adds := x.adds.filter fun a => ck < a.2.2 }
    if due.isEmpty then d else d.wakeBlocked x.entry.part

/-! ### Rings -/

/-- A slip record (R52). -/
def Dev.slipRec (d : Dev) (x : Ctx) (core cause start stall ip : Nat) : Dev :=
  match d.part? x.entry.part with
  | none => d
  | some p =>
    let bs := le 4 x.entry.id ++ le 2 p.slipSeq ++ le 1 core ++ le 1 cause ++ le 6 start ++ zeros 2 ++ le 4 stall ++
      le 4 ip ++ zeros 8
    let d := match ringSlot p.slipRing 4 20 32 p.granted p.slipSeq with
      | some a =>
        let d := d.ownerWrite p.id a bs
        d.modPart p.id fun q => { q with
          slipWrites := q.slipWrites + 1
          overwrite := if 2 ^ ringLog2 p.slipRing ≤ p.slipWrites then satAdd 64 q.overwrite 1 else q.overwrite }
      | none => d
    d.modPart p.id fun q => { q with slipSeq := q.slipSeq + 1 }

/-- The places of a ring that hold an entry, with one more (R339). -/
def addPlace (a : Nat) (l : List Nat) : List Nat := if l.contains a then l else a :: l

/-- A digest record, where DIGEST_LOG is set (R327). -/
def Dev.digestRec (d : Dev) (x : Ctx) (slot entry layer dsum dxor count : Nat) (mismatch : Bool) : Dev :=
  match d.part? x.entry.part with
  | none => d
  | some p =>
    if !bitAt p.dauCtl 0 then d
    else
      match ringSlot p.dgRing 4 20 32 p.granted p.dgNext with
      | none => d
      | some a =>
        let bs := le 4 x.entry.id ++ le 2 entry ++ le 2 layer ++ le 8 dsum ++ le 8 dxor ++ le 4 (min count (2 ^ 32 - 1)) ++
          le 1 slot ++ le 1 (x.attempt + 4 * b2n mismatch) ++ zeros 2
        let d := d.ownerWrite p.id a bs
        d.modPart p.id fun q => { q with
          dgNext := q.dgNext + 1
          dgHeld := addPlace a q.dgHeld
          dauOverwrite := satAdd 64 q.dauOverwrite (b2n (q.dgHeld.contains a)) }

/-- A waybill entry written to its place (R330, R331). -/
def Dev.wbWrite (d : Dev) (p : Part) (ref : Nat) (body : List Byte) : Dev :=
  match ringSlot p.wbRing 4 16 1024 p.granted ref with
  | none => d
  | some a =>
    let d := d.ownerWrite p.id a body
    d.modPart p.id fun q => { q with
      wbHeld := addPlace a q.wbHeld
      dauOverwrite := satAdd 64 q.dauOverwrite (b2n (q.wbHeld.contains a)) }

/-- The waybill preimage of a job (R329). -/
def Dev.preimage (d : Dev) (x : Ctx) : List Byte :=
  let ins := (List.zip (upTo x.mf.regions.length) x.mf.regions).filter (·.2.kind == 0)
  let vers := ((d.sec.running.map (·.vers)).getD []).flatMap (le 4)
  le 2 1 ++ le 1 x.mf.batch ++ le 1 ins.length ++ x.mf.digest ++ fit 48 x.weightDigest ++
  fit 48 ((d.charter.cur.map (·.digest)).getD []) ++ fit 12 vers ++ zeros 4 ++ fit 64 (x.shapes.flatMap (le 4)) ++
  (List.zip (upTo ins.length) ins).flatMap fun i =>
    let g := (x.entry.digests[i.1]?).getD (0, 0)
    le 8 g.1 ++ le 8 g.2

/-- An entry of the waybill ring without a signature (R330); `flags` is its FLAGS byte. -/
def wbBody (job ref flags : Nat) (hash pre sig : List Byte) : List Byte :=
  fit 1024 (le 4 job ++ le 4 ref ++ le 1 flags ++ [0] ++ le 2 pre.length ++ zeros 4 ++ fit 48 hash ++ fit 96 sig ++
    fit 740 pre)

/-- The waybill of a job that completes: its reference and hash, and its entry written or queued for signing (R331,
R332). -/
def Dev.waybill (d : Dev) (x : Ctx) : Nat × List Byte × Dev :=
  match d.part? x.entry.part with
  | none => (0, [], d)
  | some p =>
    let pre := d.preimage x
    let hash := sha384 pre
    let ref := p.wbNext
    let d := d.modPart p.id fun q => { q with wbNext := if q.wbNext = 2 ^ 32 - 1 then 1 else q.wbNext + 1 }
    if !bitAt p.dauCtl 1 then (ref, hash, d)
    else if !bitAt p.dauCtl 2 then (ref, hash, d.wbWrite p ref (wbBody x.entry.id ref 0 hash pre []))
    else if d.dau.signQueue.length < 4096 then
      let r : SignReq := { part := p.id, seq := ref, addr := x.entry.id, fn := p.owner, body := pre }
      (ref, hash, { d with dau := { d.dau with signQueue := d.dau.signQueue ++ [r] } })
    else
      let d : Dev := { d with dau := { d.dau with signSkipped := satAdd 64 d.dau.signSkipped 1 } }
      (ref, hash, d.wbWrite p ref (wbBody x.entry.id ref 2 hash pre []))

/-! ### The end of a job -/

/-- What a job's end reports (R35, R357). -/
structure JobEnd where
  codes : List Nat            -- status codes of the job's own conditions
  cause : Nat
  ref : Nat
  hash : List Byte
  cores : Nat
  attempts : Nat
  actual : Nat
  replay : Nat
  slip : Nat
  arith : Nat
  win : Nat
  becalmed : Nat
  deriving DecidableEq, Repr

/-- The end of a job of which nothing ran (R49, R50, R372). -/
def JobEnd.nothing (code cause : Nat) : JobEnd :=
  { codes := [code], cause := cause, ref := 0, hash := [], cores := 0, attempts := 1, actual := 0, replay := 0, slip := 0,
    arith := 0, win := 0, becalmed := 0 }

/-- The job ran and ended with a delivered status (R16). -/
def JobEnd.delivered (e : JobEnd) : Bool := !e.codes.any notDelivered

/-- The JOB record of a host job (R357). -/
def jobRecord (job tag : Nat) (e : JobEnd) : List Byte :=
  recHead 4 (statusOf e.codes) 0 (b2n !e.delivered) (condMask e.codes) 0xFFFF 0 ++
  le 4 job ++ le 4 e.ref ++ le 4 tag ++ le 1 e.cause ++ le 1 e.cores ++ le 1 e.attempts ++ [0] ++ le 8 e.actual ++
  le 4 e.replay ++ le 4 e.slip ++ le 2 e.arith ++ le 1 e.win ++ [0] ++ le 4 e.becalmed ++ zeros 72

/-- Byte offset of a buffer's byte 64 in its owner's address space (R135, R383). -/
def Dev.bufAddr (d : Dev) (id ix : Nat) : Nat :=
  match d.depot? id with
  | some x => x.base + ix * (x.bufKib * 1024) + 64
  | none => 0

/-- The results of a route job: each picture's outcome goes to the track engine under its own route (R35, R134). -/
def Dev.routeEnds (d : Dev) (e : JobEntry) (ts : List TensorRef) (end_ : JobEnd) (outLen batch : Nat)
    (keep : Bool) : Dev :=
  let rs := ts.map fun t =>
    ({ fn := e.fn, route := t.route, slot := t.slot, stream := t.stream, serial := t.serial, codes := end_.codes,
       job := if end_.ref = 0 then none else some e.id, outBuf := if keep then some t.outBuf else none,
       outAddr := d.bufAddr (outputDepot e.part) t.outBuf, outLen := outLen, waybill := end_.ref, hash := end_.hash,
       batch := if end_.ref = 0 then 0 else batch, actualCk := end_.actual, replayCk := end_.replay,
       slipCk := end_.slip, arith := end_.arith, win := end_.win } : Result)
  { d with trk := { d.trk with results := d.trk.results ++ rs } }

/-- The states and embeddings a sequence-model job made go back to its tracks (R294, R295): `base` and `stride` place the
states in the partition's space, `emb` the embeddings, of `dim` FP16 values. -/
def Dev.scatter (d : Dev) (p : Part) (set : TrackSet) (ids : List Nat) (base stride emb dim : Nat) : Dev :=
  (List.zip (upTo ids.length) ids).foldl (fun d q =>
    let bs := d.ownerRead p.id (base + q.1 * stride) stride
    let es := d.ownerRead p.id (emb + q.1 * 2 * dim) (2 * dim)
    let d := match (set.tracks.find? (·.id == q.2)).bind (·.seqBuf) with
      | some b => d.bufPut b.1 b.2 64 bs
      | none => d
    let put := fun (t : Track) => { t with emb := (upTo dim).map fun i => at_ es (2 * i) 2 }
    { d with trk := { d.trk with sets := d.trk.sets.map fun s =>
        if s.stream == set.stream && s.slot == set.slot then { s with tracks := modIf (·.id == q.2) put s.tracks }
        else s } }) d

/-- The tracker settings of the detector route whose step it is (R285). -/
def Dev.stepTrk (d : Dev) (id : Nat) : List Byte :=
  match d.trk.steps.find? (·.id == id) with
  | some s => (d.routeDesc s.route).drop 0x60
  | none => []

/-- A re-identification step that has no job and no task left ends; a failure shows in the set's next record (R295). -/
def Dev.stepEnds (d : Dev) (id : Nat) : Dev :=
  match d.trk.steps.find? (·.id == id) with
  | none => d
  | some s =>
    if s.task.isSome || !s.jobs.isEmpty || s.issued < s.tracks.length then d
    else
      let d := match s.cropBuf with
        | some b => d.freeBuf (inputDepot s.part) b
        | none => d
      { d with trk := { d.trk with
          steps := d.trk.steps.filter (·.id != id)
          sets := d.trk.sets.map fun t =>
            if t.stream == s.stream && t.slot == s.slot && s.failed then { t with reidFailed := true } else t } }

/-- A sequence-model job ends (R295). `regs` are its bound regions, none where nothing ran. -/
def Dev.seqEnds (d : Dev) (e : JobEntry) (step first count : Nat) (end_ : JobEnd) (planned : Nat) (regs : List Region) :
    Dev :=
  match d.trk.steps.find? (·.id == step), d.part? e.part with
  | some s, some p =>
    let ok := end_.delivered
    let r := d.routeDesc s.route
    let d := match ok, d.trk.sets.find? (fun t => t.stream == s.stream && t.slot == s.slot),
        (regs.filter (·.kind == 0))[1]?, regs.find? (·.kind == 1) with
      | true, some set, some states, some out =>
        let stride := if planned = 0 then 0 else states.len / planned
        d.scatter p set ((s.tracks.drop first).take count) out.base stride (out.base + states.len)
          (trkEmb (r.drop 0x60))
      | _, _, _, _ => d
    let d : Dev := { d with trk := { d.trk with steps := modIf (·.id == step) (fun s =>
      { s with jobs := s.jobs.filter (· != e.id), failed := s.failed || !ok }) d.trk.steps } }
    let d := (e.inBufs.drop 1).foldl (fun d b => d.freeBuf (inputDepot e.part) b) d
    let d := e.outBufs.foldl (fun d b => d.freeBuf (outputDepot e.part) b) d
    d.stepEnds step
  | _, _ =>
    let d := (e.inBufs.drop 1).foldl (fun d b => d.freeBuf (inputDepot e.part) b) d
    e.outBufs.foldl (fun d b => d.freeBuf (outputDepot e.part) b) d

/-- A job's end reaches its source: a JOB record, results for the track engine, or states (R35, R357, R391). `torn` marks a
teardown, which frees the output buffers too (R369). -/
def Dev.report (d : Dev) (e : JobEntry) (end_ : JobEnd) (batch planned : Nat) (regs : List Region) (torn : Bool) : Dev :=
  let d := d.modFn e.fn fun f => { f with
    dspCnt := bump 1 1 (if end_.codes.any fun c => c == 0x10 || c == 0x11 || c == 0x13 then bump 3 1 f.dspCnt
      else f.dspCnt) }
  match e.src with
  | .host tag cq _ _ _ => d.owe e.fn cq (jobRecord e.id tag end_) none
  | .route _ ts =>
    let d := e.inBufs.foldl (fun d b => d.freeBuf (inputDepot e.part) b) d
    let d := if torn then e.outBufs.foldl (fun d b => d.freeBuf (outputDepot e.part) b) d else d
    d.routeEnds e ts end_ (((regs.find? (·.kind == 1)).map (·.len)).getD 0) batch (!torn)
  | .seq _ _ _ step first count => d.seqEnds e step first count end_ planned regs

/-- SOURCE, ROUTE and REF of a fault record (R370). -/
def JobSrc.ids : JobSrc → Nat × Nat × Nat
  | .host tag _ _ _ _ => (2, 0xFFFF, tag)
  | .route r ts => (0, r, ((ts[0]?).map (·.picture)).getD 0)
  | .seq r _ _ _ _ _ => (1, r, 0)

/-- A fault record of a job (R370). -/
def Dev.faultRec (d : Dev) (e : JobEntry) (status cause check cores attempt ck ip slot : Nat) : Dev :=
  let s := e.src.ids
  d.writeFault e.part (le 4 e.id ++ le 1 status ++ le 1 cause ++ le 1 check ++ le 1 cores)
    (le 1 s.1 ++ le 1 attempt ++ le 2 s.2.1 ++ le 8 ck ++ le 4 ip ++ le 1 slot ++ zeros 3 ++ le 4 s.2.2 ++ zeros 4 ++
      le 8 e.mf ++ zeros 16)

/-- The index a fault record carries where no instruction is at fault (R370). -/
def noIp : Nat := 0xFFFFFFFF

/-- Core slots as a mask of physical cores. -/
def coreMask (cs : List Nat) : Nat := cs.foldl orBit 0

/-- Stores already issued complete: their data reaches HBM (R38, R369). -/
def Dev.flushStores (d : Dev) (x : Ctx) : Dev :=
  x.cores.foldl (fun d c =>
    let d := (d.core c).run.queue.foldl (fun d t =>
      if t.store && !t.data.isEmpty then (d.ownerWrite x.entry.part t.addr t.data).endResidence x.entry.part t.addr
        (t.addr + t.data.length) else d) d
    d.modCore c fun k => { k with run := { k.run with
      queue := k.run.queue.map fun t => if t.store then { t with data := [] } else t } }) d

/-- An injection armed for a job goes with the job's end or reissue, whichever core holds it (R165). -/
def Core.disarm (k : Core) (j : Nat) : Core :=
  { k with inject := if k.inject.owner == some j then { k.inject with arm := false, owner := none } else k.inject }

/-- The ck that the core's vector engine and window sequencer are still to be occupied from schedule ck `now` on, which its
busy counters already hold (R214, R241). -/
def CoreRun.ahead (r : CoreRun) (now : Nat) : Nat × Nat := (r.vxeFree - now, r.wsqFree - now)

/-- The flags of a core's job join the core's own (R184, R240). -/
def Dev.keepFlags (d : Dev) (c : Nat) : Dev :=
  let m := (d.core c).mem
  (d.modCore c fun k => { k with arithFlags := k.arithFlags ||| k.mem.arith, wsqFlags := k.wsqFlags ||| k.mem.win }).fireAll
    (((upTo 16).filter (bitAt m.arith ·)).map (.arith c) ++ ((upTo 2).filter (bitAt m.win ·)).map (.window c))

/-- The work under way is cut at schedule ck `now`: the busy counters keep the ck occupied so far (R214, R241). -/
def Core.cut (k : Core) (now : Nat) : Core :=
  { k with vxeBusy := k.vxeBusy - (k.run.ahead now).1, wsqBusy := k.wsqBusy - (k.run.ahead now).2 }

/-- A core leaves its job. -/
def Core.leave (k : Core) (now : Nat) (scrub : Bool) : Core :=
  { k.cut now with job := none, slot := 0, run := CoreRun.start, mem := if scrub then CoreMem.zero else k.mem }

/-- The cores of a job are released, and its injections cleared on every core. -/
def Dev.leaveCores (d : Dev) (x : Ctx) (scrub : Bool) : Dev :=
  { d with cores := d.cores.map fun k =>
      (if k.job == some x.entry.id then k.leave x.now scrub else k).disarm x.entry.id }

/-- A context leaves the save lane (R376). -/
def Dev.leaveLane (d : Dev) (j : Nat) : Dev :=
  { d with mem := { d.mem with
      laneBusy := if d.mem.laneBusy == some j then none else d.mem.laneBusy
      laneQueue := d.mem.laneQueue.filter (· != j) } }

/-- The waymark adds of a job that ends all reach their counts; its private block returns to the pool (R267, R369). -/
def Dev.dropWaymarks (d : Dev) (x : Ctx) : Dev :=
  let far := x.adds.foldl (fun a b => max a b.2.2) 0
  (d.foldAdds x.entry.id far).clearWmk x.wmBase (x.wmBase + x.mf.wmCount)

/-- A context is torn down with JOB_FAULT (R369): `ip` and `slot` name the faulting instruction. The ck at which such a job
would have completed is not stated: a free value (log 15). -/
def Dev.teardown (d : Dev) (j cause ip slot : Nat) : Dev :=
  match d.ctx? j with
  | none => d
  | some x =>
    let d := d.flushStores x
    let d := d.faultRec x.entry 0x13 cause 0 (coreMask x.cores) x.attempt (x.localCk x.now) ip slot
    let d := d.dropWaymarks x
    let arith := (d.runs x).length
    let mems := if x.cores.isEmpty then x.saved.map (·.mem) else x.cores.map fun c => (d.core c).mem
    let d := d.leaveCores x true
    let d := d.leaveLane j
    let w := d.waybill x
    let r := drawFree w.2.2
    let actual := r.1 % 2 ^ 48
    let d : Dev := { r.2 with ctxs := r.2.ctxs.filter (·.entry.id != j) }
    let end_ : JobEnd :=
      { codes := 0x13 :: (if x.violation then [0x12] else []) ++ (if 0 < x.replayCk then [3] else []),
        cause := cause, ref := w.1, hash := w.2.1, cores := x.coreMask, attempts := x.attempt + 1, actual := actual,
        replay := x.replayCk, slip := (actual - x.mf.planned - x.replayCk) % 2 ^ 32,
        arith := if arith = 0 then 0 else mems.foldl (fun a m => a ||| m.arith) 0,
        win := mems.foldl (fun a m => a ||| m.win) 0, becalmed := x.becalmed }
    d.report x.entry end_ x.mf.batch 0 x.regions true

/-- A job that never started ends without running (R362, R372, R373): it leaves its partition's lists. -/
def Dev.endUnstarted (d : Dev) (e : JobEntry) (status cause check : Nat) (rec : Bool) : Dev :=
  let d := d.modPart e.part fun p => { p with
    list := p.list.filter (·.id != e.id), mustered := p.mustered.filter (·.id != e.id) }
  let d := if rec then d.faultRec e status cause check 0 0 0 noIp 0 else d
  d.report e (JobEnd.nothing status cause) 0 0 [] (status == 0x13)

/-- The ck in which the last core retired END; none while a core has not (R35). -/
def lastEnd : List CoreRun → Option Nat
  | [] => some 0
  | r :: rs =>
    match r.ended, lastEnd rs with
    | some e, some m => some (max e m)
    | _, _ => none

/-- A job completes (R35, R54). -/
def Dev.complete (d : Dev) (j : Nat) : Dev :=
  match d.ctx? j with
  | none => d
  | some x =>
    let e := (lastEnd (d.runs x)).getD 0
    let actual := max x.mf.planned (x.localCk e)
    let slip := actual - x.mf.planned - x.replayCk
    let d := d.dropWaymarks x
    let arith := x.cores.foldl (fun a c => a ||| (d.core c).mem.arith) 0
    let win := x.cores.foldl (fun a c => a ||| (d.core c).mem.win) 0
    let d := x.cores.foldl (fun d c => d.keepFlags c) d
    let d := d.leaveCores x false
    let w := d.waybill x
    let d : Dev := { w.2.2 with ctxs := w.2.2.ctxs.filter (·.entry.id != j) }
    let end_ : JobEnd :=
      { codes := (if x.violation then [0x12] else []) ++ (if 0 < slip ∨ 0 < x.attempt then [2] else []) ++
          (if 0 < x.replayCk then [3] else []),
        cause := 0, ref := w.1, hash := w.2.1, cores := x.coreMask, attempts := x.attempt + 1, actual := actual,
        replay := x.replayCk % 2 ^ 32, slip := slip % 2 ^ 32, arith := arith, win := win, becalmed := x.becalmed }
    let seqPlan := match x.entry.src with
      | .seq _ _ _ step _ _ => ((x.mf.shapes[at_ (d.stepTrk step) 0x15 1]?).getD (0, 0)).1
      | _ => 0
    d.report x.entry end_ x.mf.batch seqPlan x.regions false

/-! ### Reissue -/

/-- ST0 maps a core's suspect row out, where an entry is free (R57, R158). -/
def Dev.mapOutSuspect (d : Dev) (c : Nat) : Dev :=
  match (d.core c).suspect with
  | none => d
  | some row => d.mapOut c row

/-- The open digest entry of a core slot before any DGP (R326). -/
def Manifest.firstDig (m : Manifest) (slot : Nat) : Option DigOpen := (m.digs.find? (·.1 == slot)).map (·.2)

/-- A core at the start of an attempt of a job (R34, R56, R252). -/
def Core.begin (k : Core) (j slot : Nat) (dig : Option DigOpen) (scrub : Bool) : Core :=
  let m := if scrub then CoreMem.zero else k.mem
  { k with
    job := some j, slot := slot, run := CoreRun.start
    mem := { m with arith := 0, win := 0, steps := List.replicate 32 0, dig := dig } }

/-- An armed injection acts on the next job that starts on the core (R165). -/
def Core.adopt (k : Core) (j : Nat) : Core :=
  { k with inject := if k.inject.arm && k.inject.owner.isNone then { k.inject with owner := some j } else k.inject }

/-- ST0 aborts the attempt and reissues the job from its inputs, at most 3 times (R56, R57). Nothing of the attempt's
schedule after `now` takes place. -/
def Dev.reissue (d : Dev) (j : Nat) : Dev :=
  match d.ctx? j with
  | none => d
  | some x =>
    let d := d.flushStores x
    let at_ck := x.localCk x.now
    if 3 ≤ x.attempt then
      let d := d.health 0x03 2 (hUnit 1 ((x.cores[0]?).getD 0)) j []
      d.teardown j 0x05 noIp 0
    else
      let d := d.slipRec x ((x.cores[0]?).getD 0) 0x0A x.base (at_ck - x.base) 0
      let d := d.life 6 1
      let d := x.cores.foldl (fun d c => d.mapOutSuspect c) d
      let d : Dev := { d with cores := d.cores.map fun k => k.disarm j }
      let d := d.clearWmk x.wmBase (x.wmBase + x.mf.wmCount)
      let d := (List.zip (upTo x.cores.length) x.cores).foldl (fun d q => d.modCore q.2 fun k =>
        (k.cut x.now).begin j q.1 (x.mf.firstDig q.1) true) d
      d.modCtx j fun x => { x with
        attempt := x.attempt + 1, base := at_ck, replayCk := 0, now := 0, pauses := [], paused := false, replays := [],
        spent := [], adds := [] }

/-- The watchdog limit of an attempt, in job-local ck (R58). -/
def Ctx.watchdogCk (x : Ctx) : Nat := x.base + x.mf.planned + x.mf.reserve + 2 ^ 24

end Sys2Proof.Machine
end

