-- ==== Sys2Proof/Machine/Tile.lean ====
section
/-! DEFINITION. Issue of tile instructions: which instruction a word is (R245, R247), what it reads, writes and waits for
(R42, R43, R148 to R150, R155, R194, R195, R273), and in which ck it issues (R246). -/

namespace Sys2Proof.Machine

/-- The instructions of R247 as the rows of the table divide them. -/
inductive TileOp where
  | nop | prefix_ | mxm | cnv | dwc | plx | setlen | cvt | arith | function | compare | rqnt | softmax | layernorm | nms
  | reduce | topk | ldt | stt | shl | wms | wmw | gate | cfaAdd | cfaLoad | cfaInit | dgp | end_
  deriving DecidableEq, Repr

/-- The instruction of a word, gates apart; none for an undefined opcode, function or operation (R247, R196, R201,
R269). -/
def opOf (w : Nat) : Option TileOp :=
  match bits w 0 4 with
  | 0 => some (if bitAt w 4 then .prefix_ else .nop)
  | 1 => some .mxm
  | 2 => some .cnv
  | 3 => some .dwc
  | 4 => some .plx
  | 5 =>
    let f := bits w 24 6
    if f = 0 then some .setlen
    else if f = 1 then some .cvt
    else if f ≤ 9 ∨ f = 0x18 then some .arith
    else if f ≤ 0x0E then some .compare
    else if f = 0x0F then some .rqnt
    else if f ≤ 0x17 then some .function
    else if f = 0x20 then some .softmax
    else if f = 0x21 then some .layernorm
    else if f = 0x22 then some .nms
    else none
  | 6 => if bits w 24 6 ≤ 6 then some .reduce else if bits w 24 6 = 7 then some .topk else none
  | 7 => some .ldt
  | 8 => some .stt
  | 9 => some .shl
  | 10 => some .wms
  | 11 => some .wmw
  | 12 =>
    match bits w 4 2 with
    | 0 => some .cfaAdd
    | 1 => some .cfaLoad
    | 2 => some .cfaInit
    | _ => none
  | 13 => some .dgp
  | 14 => some .end_
  | _ => none

/-- The class of an instruction (R247): Control, Array, Vector, Transfer, Shadow, Waymark. -/
def TileOp.cls : TileOp → Nat
  | .nop | .prefix_ | .setlen | .dgp | .end_ => 0
  | .mxm | .cnv | .dwc | .plx => 1
  | .cvt | .arith | .function | .compare | .rqnt | .softmax | .layernorm | .nms | .reduce | .topk => 2
  | .ldt | .stt => 3
  | .shl => 4
  | .wms | .wmw | .gate | .cfaAdd | .cfaLoad | .cfaInit => 5

/-- Where a core's instruction stands: the device, its job, its partition and its slot. -/
structure Seat where
  x : Ctx
  p : Part
  slot : Nat
  k : Core
  deriving DecidableEq, Repr

/-- The seat of a core that belongs to a job. -/
def Dev.seat (d : Dev) (c : Nat) : Option Seat :=
  match d.ctxOf c with
  | some x =>
    match d.part? x.entry.part with
    | some p => some { x := x, p := p, slot := (d.core c).slot, k := d.core c }
    | none => none
  | none => none

/-! ### Lengths -/

/-- Value and planned value of a length register for an instruction that issues at `t` (R246). -/
def LReg.at (l : LReg) (t : Nat) : Nat × Nat := if t < l.since then (l.oldValue, l.oldPlanned) else (l.value, l.planned)

/-- Run-time and planned length of a register (R252). -/
def LReg.len (l : LReg) (t : Nat) : Len := (min (l.at t).1 (l.at t).2, (l.at t).2)

/-- Length register `n` of a core. -/
def CoreRun.lr (r : CoreRun) (n : Nat) : LReg := (r.lrs[n]?).getD LReg.one

/-- A length field of `width` bits: its length and the register it names (R252); none where other bits are set. -/
def lenField (r : CoreRun) (t raw width : Nat) (reg : Bool) : Option (Len × Option Nat) :=
  let raw := raw % 2 ^ width
  if reg then (if raw < 8 then some ((r.lr raw).len t, some raw) else none) else some ((raw, raw), none)

/-! ### What an instruction waits for -/

/-- A wait: the first ck that satisfies it, none while no ck is known; its slip cause (R53); whether it is a wait of
R195. -/
structure Hold where
  ck : Option Nat
  cause : Nat
  vxe : Bool
  deriving DecidableEq, Repr

/-- A unit is busy until a ck. -/
def busy (ck : Nat) : Hold := { ck := some ck, cause := 3, vxe := false }

/-- What an instruction is, asks for and touches, at planned lengths (R253). -/
structure Need where
  ok : Bool                     -- a defined encoding (R248)
  region : Bool                 -- breaks R266's region rules
  holds : List Hold
  reads : List (Nat × Nat)      -- scratchpad spans
  writes : List (Nat × Nat)
  deriving DecidableEq, Repr

def Need.bad : Need := { ok := false, region := false, holds := [], reads := [], writes := [] }

/-- A transfer's release ck is known: its data has landed or has the promise of its bound, and so has every store it is
ordered behind (R42, R44). -/
def Transfer.known (q : Transfer) : Bool := q.landed && q.clear

/-- The wait for a transfer (R42, R43, R44, R46). -/
def Transfer.hold (q : Transfer) (cause : Nat) : Hold :=
  { ck := if q.known then some q.release else none, cause := if q.late = 0 then cause else q.late, vxe := false }

/-- The scratchpad span of a transfer, at its planned length (R253). -/
def Transfer.span (q : Transfer) : Nat × Nat := (64 * q.csp, 64 * q.csp + q.planned)

/-- Some span of a list, itself not empty, overlaps a span. -/
def touches (l : List (Nat × Nat)) (s : Nat × Nat) : Bool :=
  l.any fun a => a.1 < a.2 && s.1 < s.2 && overlaps a.1 a.2 s.1 s.2

/-- The queue with a release taken as known only where every earlier one is: R40 builds each on the one before. -/
def sure : Bool → List Transfer → List Transfer
  | _, [] => []
  | ok, q :: qs => { q with landed := ok && q.landed } :: sure (ok && q.known) qs

/-- The transfers a core's next instruction can still wait for: those in flight, and those released since its last issue,
whose release ck an issue in that same ck waited for. -/
def CoreRun.waits (r : CoreRun) : List Transfer := sure true (r.gone ++ r.queue)

/-- Waits for pending regions (R42, R43). -/
def CoreRun.pendingHolds (r : CoreRun) (reads writes : List (Nat × Nat)) : List Hold :=
  r.waits.flatMap fun q =>
    (if touches writes q.span then [q.hold 2] else []) ++ (if !q.store && touches reads q.span then [q.hold 1] else [])

/-- Waits for destinations and sources of the vector engine and the array (R155, R195). -/
def CoreRun.markHolds (r : CoreRun) (reads writes : List (Nat × Nat)) : List Hold :=
  r.marks.flatMap fun m =>
    match m.kind with
    | .vxeDest => if touches reads (m.lo, m.hi) then [{ ck := some m.ck, cause := 3, vxe := true }] else []
    | .vxeSrc => if touches writes (m.lo, m.hi) then [{ ck := some m.ck, cause := 3, vxe := true }] else []
    | .arrSrc => if touches writes (m.lo, m.hi) then [busy m.ck] else []
    | .line | .acmSrc => []

/-- The first ck in which a write to `[lo, hi)` does not meet a weight word that the array still reads (R155). -/
def WeightMark.hold (m : WeightMark) (lo hi : Nat) : List Hold :=
  if m.step = 0 ∨ m.count = 0 ∨ m.tp = 0 ∨ !touches [(lo, hi)] (m.base, m.base + m.count * m.step) then []
  else
    let n := min (m.count - 1) ((hi - 1 - m.base) / m.step)
    [busy (m.front + n / m.tp * m.u + (n % m.tp + 1) * m.w + 41)]

def CoreRun.weightHolds (r : CoreRun) (writes : List (Nat × Nat)) : List Hold :=
  r.weights.flatMap fun m => writes.flatMap fun s => m.hold s.1 s.2

/-- Every wait of an instruction. -/
def CoreRun.holdsOf (r : CoreRun) (n : Need) : List Hold :=
  n.holds ++ r.pendingHolds n.reads n.writes ++ r.markHolds n.reads n.writes ++ r.weightHolds n.writes

/-- A wait until a CFA's result is readable (R269, R279). -/
def CoreRun.lrHold (r : CoreRun) (o : Option Nat) : List Hold :=
  match o with
  | some n => [busy (r.lr n).readable]
  | none => []

/-- Waits of ACM lines `[lo, hi)` for a reader (R155). -/
def CoreRun.lineHolds (r : CoreRun) (lo hi : Nat) : List Hold :=
  (r.marks.filter fun m => m.kind == .line && overlaps lo hi m.lo m.hi).map fun m => busy m.ck

/-- Waits of ACM lines for an array instruction that first writes each of them some ck after its issue (R155, R195). -/
def CoreRun.acmHolds (r : CoreRun) (lines : List (Nat × Nat × Nat)) : List Hold :=
  lines.flatMap fun l =>
    (r.marks.filter fun m => m.kind == .acmSrc && touches [(l.1, l.2.1)] (m.lo, m.hi)).map fun m =>
      { ck := some (m.ck - l.2.2), cause := 3, vxe := true }

/-! ### Array instructions -/

/-- Scratchpad spans of the stationary chunk of pass `k` and its scales, with the first ck after its load, for an
instruction that issues at `issue`; chunk 0 is not read with PRELOAD (R147, R255). -/
def ArrPlan.chunkSpans (q : ArrPlan) (issue k : Nat) : List (Nat × Nat × Nat) :=
  match q.loadAt issue k with
  | none => []
  | some l =>
    ((q.cols[k]?).getD []).flatMap fun o =>
      match o with
      | some a => (a.1, a.1 + q.readS, l + loadCk q.wide) ::
          (if fmtIsMx q.sFmt then [(a.2, a.2 + 4, l + loadCk q.wide)] else [])
      | none => []

/-- Every stationary span of an instruction. -/
def ArrPlan.statSpans (q : ArrPlan) (issue : Nat) : List (Nat × Nat × Nat) := (upTo q.nk).flatMap (q.chunkSpans issue)

/-- Scratchpad spans an array instruction reads. -/
def ArrPlan.reads (q : ArrPlan) : List (Nat × Nat) :=
  if q.empty then []
  else (q.statSpans 0).map (fun s => (s.1, s.2.1)) ++ [(q.wAddr, q.weightEnd)] ++
    (if fmtIsMx q.wFmt then [(q.wScale, q.wScaleEnd)] else [])

/-- The lines of each word step, for an instruction whose first front is `front`: their span, and the ck in which the first
and the last word that writes them leave the feeder (R152, R153). -/
def ArrPlan.lineWords (q : ArrPlan) (front : Nat) : List (Nat × Nat × Nat × Nat) :=
  if q.empty then []
  else
    (q.lines.map (·.1)).eraseDups.flatMap fun b =>
      let ks := ((List.zip (upTo q.nk) q.lines).filter (·.2.1 == b)).map (·.1)
      (upTo q.tp).map fun t =>
        (b + 32 * t, b + 32 * t + 32, q.wordCk front (ks.foldl min q.nk) t, q.wordCk front (ks.foldl max 0) t)

/-- The lines of each word step, with the ck from which they are readable: 42 ck after the last word that writes them
(R152, R155). -/
def ArrPlan.lineMarks (q : ArrPlan) (front : Nat) : List (Nat × Nat × Nat) :=
  (q.lineWords front).map fun l => (l.1, l.2.1, l.2.2.2 + 42)

/-- The lines of each word step, with the ck after its issue in which the instruction first writes them (R152). -/
def ArrPlan.lineWrites (q : ArrPlan) : List (Nat × Nat × Nat) :=
  (q.lineWords (q.front 0)).map fun l => (l.1, l.2.1, l.2.2.1 + 41)

/-- Waits for the array and its shadow banks (R147 to R150, R273). -/
def CoreRun.arrayHolds (r : CoreRun) (q : ArrPlan) : List Hold :=
  busy r.arrFree ::
  (if q.empty then []
   else
     (if q.preload then [{ ck := r.shadowDone.map (· + 1), cause := 6, vxe := false }]
      else [busy r.shadowFree, busy r.shadowWritable]) ++
     r.acmHolds q.lineWrites)

/-- M, N and K of an MXM (R254). -/
def mxmLens (r : CoreRun) (t w : Nat) : Option ((Len × Option Nat) × (Len × Option Nat) × (Len × Option Nat)) :=
  match lenField r t (bits w 80 7) 7 (bitAt w 87), lenField r t (bits w 88 14) 14 (bitAt w 102),
      lenField r t (bits w 103 17) 17 (bitAt w 120) with
  | some m, some n, some k => some (m, n, k)
  | _, _, _ => none

def needMxm (s : Seat) (t w : Nat) : Need :=
  let r := s.k.run
  match mxmLens r t w with
  | none => Need.bad
  | some (m, n, k) =>
    let q := mxmPlan w r.scalePre (m.1.2, m.1.2) (n.1.2, n.1.2) (k.1.2, k.1.2)
    { ok := mxmDefined w q m.1.2 n.1.2 k.1.2 r.scalePre.isSome s.x.mf.cspBytes s.x.mf.acmBytes, region := false,
      holds := r.arrayHolds q ++ r.lrHold m.2 ++ r.lrHold n.2 ++ r.lrHold k.2, reads := q.reads, writes := [] }

/-- The PLANNED values of the job's shape variables. -/
def Ctx.plans (x : Ctx) : List Nat := x.mf.shapes.map (·.1)

/-- The window descriptor an instruction names (R258, R259). -/
def Seat.win (s : Seat) (w : Nat) : Option Win :=
  winOf (memBytes s.k.mem.csp (64 * bits w 32 20) 64) (s.x.shapes.take s.x.mf.shapes.length) s.x.plans

def descSpan (g : Nat) : Nat × Nat := (64 * g, 64 * g + 64)

/-- N of a CNV; a DWC has none (R258). -/
def winN (r : CoreRun) (t w : Nat) (dwc : Bool) : Option (Len × Option Nat) :=
  if dwc then some ((0, 0), none) else lenField r t (bits w 80 14) 14 (bitAt w 94)

def needWin (s : Seat) (t w : Nat) (dwc : Bool) : Need :=
  let r := s.k.run
  let desc := descSpan (bits w 32 20)
  match s.win w, winN r t w dwc with
  | some v, some n =>
    let q := winPlan w dwc v r.scalePre (n.1.2, n.1.2) true
    { ok := winDefined w dwc v q n.1.2 r.scalePre.isSome s.x.mf.cspBytes s.x.mf.acmBytes, region := false,
      holds := busy r.wsqFree :: (r.arrayHolds q ++ r.lrHold n.2), reads := desc :: q.reads, writes := [] }
  | _, _ => Need.bad

/-- Scratchpad spans a PLX reads (R228). -/
def plxReads (v : Win) (fmt : Nat) : List (Nat × Nat) :=
  let size := v.outSize v.ih.2 v.iw.2
  (upTo v.npos.2).flatMap fun p =>
    match v.pos size v.npos.2 p with
    | some o => (v.taps o.1 o.2).map fun t =>
        let a := v.inBase + t.1 * v.rowPitch + t.2.1 * v.pixPitch
        (a, a + ceilDiv (v.chans * fmtBits fmt) 8)
    | none => []

/-- Scratchpad spans a PLX writes (R228). -/
def plxWrites (v : Win) (fmt : Nat) : List (Nat × Nat) :=
  viewSpans v.dst v.dstPitch v.npos.2 v.chans (fmtBits (plxFmt v fmt))

def needPlx (s : Seat) (w : Nat) : Need :=
  let r := s.k.run
  match s.win w with
  | some v =>
    let f := bits w 24 4
    { ok := plxDefined w v s.x.mf.cspBytes, region := false,
      holds := [busy r.wsqFree, { ck := some r.vxeFree, cause := 3, vxe := true }],
      reads := descSpan (bits w 32 20) :: plxReads v f, writes := plxWrites v f }
  | none => Need.bad

/-! ### Vector instructions -/

/-- The vector instruction of a word, with its descriptor (R261, R262). -/
def Seat.vec (s : Seat) (w : Nat) : VecOp := vecOfWord w (memBytes s.k.mem.csp (64 * bits w 92 20) 64)

/-- VL, VR, VLP and VRP an instruction latches at `t` (R190). -/
def CoreRun.vlens (r : CoreRun) (t : Nat) : Nat × Nat × Nat × Nat :=
  ((r.vl.at t).1, (r.vr.at t).1, (r.vl.at t).2, (r.vr.at t).2)

def needVec (s : Seat) (t w : Nat) : Need :=
  let r := s.k.run
  let v := s.vec w
  let l := r.vlens t
  { ok := v.defined l.2.2.1 l.2.2.2 s.x.mf.cspBytes s.x.mf.acmBytes, region := false,
    holds := { ck := some r.vxeFree, cause := 3, vxe := true } ::
      (if v.isAcm 0 then r.lineHolds v.a (v.a + l.2.2.2) else []),
    reads := descSpan (bits w 92 20) :: v.reads l.2.2.1 l.2.2.2, writes := v.writes l.2.2.1 l.2.2.2 }

/-! ### Control, transfers, shadow loads -/

/-- A defined SETLEN (R190, R248, R264). -/
def setlenOk (w shapes : Nat) : Bool :=
  let reg := bits w 32 4
  let plan := bits w 40 17
  bits w 4 4 == 0 && bits w 30 2 == 0 && bits w 37 3 == 0 && bits w 111 17 == 0 && (reg ≤ 1 || 8 ≤ reg) &&
  plan ≤ (if reg = 1 then 4096 else 65536) &&
  (if bitAt w 36 then bits w 74 4 < shapes && bits w 57 17 == 0 else bits w 74 37 == 0)

/-- The value a SETLEN sets (R190). -/
def setlenVal (w : Nat) (shape : List Nat) : Nat :=
  let plan := bits w 40 17
  if bitAt w 36 then
    min plan (max 0 ((bits w 78 16 + 1 : Nat) * ((shape[bits w 74 4]?).getD 0 : Nat) + sext 17 (bits w 94 17))).toNat
  else min plan (bits w 57 17)

def needPlain (ok : Bool) : Need := { ok := ok, region := false, holds := [], reads := [], writes := [] }

/-- The word after a scale prefix is an array instruction with an MX operand (R256). -/
def prefixFollowed (next : Option Nat) : Bool :=
  match next with
  | some w =>
    let o := bits w 0 4
    1 ≤ o && o ≤ 3 && (fmtIsMx (bits w 24 4) || fmtIsMx (bits w 28 4))
  | none => false

/-- A transfer's place in HBM, as an offset within its region: start and run-time length in bytes (R265, R266). -/
structure XferPlan where
  region : Region
  off : Nat
  run : Nat
  planned : Nat
  csp : Nat
  deriving DecidableEq, Repr

/-- The transfer of a word with the registers it uses (R265, R266); none where it is an undefined encoding. -/
def xferPlan (s : Seat) (t w : Nat) : Option (XferPlan × List Hold) :=
  let r := s.k.run
  let ix := bitAt w 107
  let lr := r.lr (bits w 104 3)
  match lenField r t (bits w 85 18) 18 (bitAt w 103), s.x.regions[bits w 44 8]? with
  | some n, some g =>
    let ok := bits w 4 4 == 0 && n.1.2 < 2 ^ 18 && (ix || (bits w 104 3 == 0 && bits w 108 20 == 0)) &&
      64 * (bits w 24 20 + n.1.2) ≤ s.x.mf.cspBytes
    if ok then
      some ({ region := g, off := 64 * (bits w 52 33 + (if ix then (lr.at t).1 * bits w 108 20 else 0)),
              run := 64 * n.1.1, planned := 64 * n.1.2, csp := bits w 24 20 },
            r.lrHold n.2 ++ (if ix then [busy lr.readable] else []))
    else none
  | _, _ => none

/-- The wait for a place in the queue of 16 (R40). -/
def CoreRun.queueHolds (r : CoreRun) : List Hold :=
  let l := r.waits
  if l.length < 16 then []
  else
    match l[l.length - 16]? with
    | some q => [q.hold 5]
    | none => []

def needXfer (s : Seat) (t w : Nat) (store : Bool) : Need :=
  match xferPlan s t w with
  | none => Need.bad
  | some (x, hs) =>
    let sp := (64 * x.csp, 64 * x.csp + x.planned)
    { ok := true,
      region := x.region.len < x.off + x.run || (store && (x.region.kind == 0 || x.region.kind == 3)),
      holds := hs ++ s.k.run.queueHolds, reads := if store then [sp] else [], writes := if store then [] else [sp] }

/-- Scratchpad spans an SHL reads (R257). -/
def shlReads (w : Nat) : List (Nat × Nat) :=
  let f := bits w 24 4
  let n := if fmtIs4 f then 64 else fmtBits f * 8
  ((upTo 64).map fun c =>
    let a := 64 * (bits w 32 20 + c * bits w 52 20)
    (a, a + n)) ++ (if fmtIsMx f then [(64 * bits w 72 20, 64 * bits w 72 20 + 256)] else [])

def needShl (s : Seat) (w : Nat) : Need :=
  let r := s.k.run
  { ok := shlDefined w s.x.mf.cspBytes, region := false, holds := [busy r.shadowFree, busy r.shadowWritable],
    reads := shlReads w, writes := [] }

/-! ### Waymarks -/

/-- An index names a shared waymark of the partition (R267). -/
def Seat.isShared (s : Seat) (ix : Nat) : Bool := !s.x.mf.isPrivate ix && ix < s.p.shared

/-- The gate-table entry a core matches a waymark with: the lowest it has not passed (R36). -/
def Seat.gateFor (s : Seat) (ix : Nat) : Option Nat :=
  (upTo s.x.mf.gates.length).find? fun e =>
    !s.k.run.passed.contains e && ((s.x.mf.gates[e]?).map (·.2)) == some ix

/-- A WMW is a gate: its bit is set, or a remaining gate-table entry names its waymark (R36). -/
def Seat.isGate (s : Seat) (w : Nat) : Bool := bitAt w 4 || (s.gateFor (bits w 24 16)).isSome

/-- Schedule ck from which a WMW is satisfied, from `t` on, by what is known (R268): one that still waits when the job's
schedule has reached a later ck can issue in that ck at the earliest. -/
def Dev.wmwCk (d : Dev) (s : Seat) (w t : Nat) : Option Nat :=
  let t := max t s.x.now
  let m := s.x.devWm s.p (bits w 24 16)
  let cks := (t :: ((s.x.adds.filter fun a => a.1 == m && t ≤ a.2.2).map (·.2.2)))
  let good := cks.filter fun c => wmSat (d.countAt s.x m c) (bits w 40 32)
  match good with
  | [] => none
  | c :: cs => some (cs.foldl min c)

def needWms (d : Dev) (s : Seat) (w : Nat) : Need :=
  let ix := bits w 24 16
  needPlain (bits w 4 4 == 0 && bits w 72 56 == 0 && (s.x.mf.isPrivate ix || s.isShared ix) &&
    !(d.wmkAt (s.x.devWm s.p ix)).counter)

def needWmw (d : Dev) (s : Seat) (t w : Nat) : Need :=
  let ix := bits w 24 16
  if s.isGate w then needPlain (bits w 5 3 == 0 && bits w 72 56 == 0 && (s.gateFor ix).isSome)
  else
    { ok := bits w 5 3 == 0 && bits w 72 56 == 0 && s.x.mf.isPrivate ix && !(d.wmkAt (s.x.devWm s.p ix)).counter,
      region := false, holds := [{ ck := d.wmwCk s w t, cause := 4, vxe := false }], reads := [], writes := [] }

/-- The ck of a core's next instruction by its plan (R246). -/
def CoreRun.planCk (r : CoreRun) (w : Nat) : Nat :=
  match r.last with
  | none => 0
  | some l => l + bits w 8 16

/-- The wait of a CFA for the other cores of its job to pass its planned ck, its ck by the plan less the slip its core had
accrued (R270): the ck in which the last of them does; none while one that still runs has instructions of an earlier planned
ck, or of the same one in a lower slot, to issue. A core that stands at a gate or has ended has passed it. -/
def Dev.cfaCk (d : Dev) (s : Seat) (w : Nat) : Option Nat :=
  let p := s.k.run.planCk w - s.k.run.slip
  let others := (List.zip (upTo s.x.cores.length) s.x.cores).filter fun o => o.1 != s.slot
  others.foldl (fun (a : Option Nat) o =>
    let r := (d.core o.2).run
    if r.ended.isSome then a
    else
      let past := r.gate.isSome ||
        (match d.tileAt s.p s.x o.1 r.ip with
         | some w =>
           let q := r.planCk w - r.slip
           if o.1 < s.slot then decide (p < q) else decide (p ≤ q)
         | none => true)
      if past then a.map (max (p + r.slip)) else none) (some s.x.now)

def needCfa (d : Dev) (s : Seat) (w : Nat) : Need :=
  let op := bits w 4 2
  let ix := bits w 24 16
  { ok := op ≤ 2 && bits w 6 2 == 0 && bits w 75 53 == 0 && s.x.mf.isPrivate ix && (op != 1 || bits w 40 32 == 0),
    region := false, holds := [{ ck := d.cfaCk s w, cause := 4, vxe := false }], reads := [], writes := [] }

/-- DGP waits for every scratchpad write of earlier instructions (R271). -/
def CoreRun.dgpHolds (r : CoreRun) : List Hold :=
  (r.waits.filter fun q => !q.store).map (·.hold 3) ++
  (r.marks.filter fun m => m.kind == .vxeDest).map fun m => busy m.ck

/-- END waits for every unit, destination and transfer (R272). -/
def CoreRun.endHolds (r : CoreRun) : List Hold :=
  [busy r.arrFree, busy r.vxeFree, busy r.wsqFree, busy r.shadowFree] ++ r.waits.map (·.hold 3) ++
  (r.marks.filter fun m => m.kind == .vxeDest || m.kind == .line).map fun m => busy m.ck

/-! ### Issue -/

/-- What the instruction of a word needs when it would issue at `t`. -/
def Dev.need (d : Dev) (s : Seat) (t w : Nat) : Need :=
  let n := match opOf w with
    | none => Need.bad
    | some .nop => needPlain (bits w 5 3 == 0 && bits w 24 104 == 0)
    | some .prefix_ =>
      needPlain (bits w 5 3 == 0 && bits w 64 64 == 0 && prefixFollowed (d.tileAt s.p s.x s.slot (s.k.run.ip + 1)))
    | some .mxm => needMxm s t w
    | some .cnv => needWin s t w false
    | some .dwc => needWin s t w true
    | some .plx => needPlx s w
    | some .setlen => needPlain (setlenOk w s.x.mf.shapes.length)
    | some .ldt => needXfer s t w false
    | some .stt => needXfer s t w true
    | some .shl => needShl s w
    | some .wms => needWms d s w
    | some .wmw => needWmw d s t w
    | some .gate => Need.bad
    | some .cfaAdd => needCfa d s w
    | some .cfaLoad => needCfa d s w
    | some .cfaInit => needCfa d s w
    | some .dgp =>
      { needPlain (bits w 4 4 == 0 && bits w 36 92 == 0 && bits w 24 12 < s.x.mf.digs.length) with
        holds := s.k.run.dgpHolds }
    | some .end_ => { needPlain (bits w 4 4 == 0 && bits w 24 104 == 0) with holds := s.k.run.endHolds }
    | some .cvt | some .arith | some .function | some .compare | some .rqnt | some .softmax | some .layernorm
    | some .nms | some .reduce | some .topk => needVec s t w
  if s.k.run.last.isNone && bits w 8 16 != 0 then Need.bad else n

/-- The spans of the descriptor an instruction names: part of the instruction itself. -/
def descOf (w : Nat) : List (Nat × Nat) :=
  match opOf w with
  | some .cnv | some .dwc | some .plx => [descSpan (bits w 32 20)]
  | some .cvt | some .arith | some .function | some .compare | some .rqnt | some .softmax | some .layernorm
  | some .nms | some .reduce | some .topk => [descSpan (bits w 92 20)]
  | _ => []

/-- The last of the waits, with its cause: the lowest cause among equals (log 16); none while a ck is not known. -/
def lastHold (plan : Nat) (hs : List Hold) : Option (Nat × Nat × Bool) :=
  hs.foldl (fun (a : Option (Nat × Nat × Bool)) h =>
    match a, h.ck with
    | some b, some c =>
      if b.1 < c then some (c, h.cause, h.vxe)
      else if c = b.1 ∧ plan < c then
        (if h.cause < b.2.1 then some (c, h.cause, h.vxe) else some (b.1, b.2.1, b.2.2 || h.vxe && h.cause == b.2.1))
      else some b
    | _, _ => none) (some (plan, 0, false))

/-- A transfer's data reaches its end: the scratchpad, or HBM (R42, R43). -/
def Core.land (k : Core) (q : Transfer) : Core :=
  if q.store then k else { k with mem := { k.mem with csp := memWriteBytes k.mem.csp (64 * q.csp) q.data } }

/-- The front of a core's queue, released (R40). -/
def Core.releaseOne (k : Core) : Core :=
  match k.run.queue with
  | [] => k
  | q :: qs =>
    let k := k.land q
    { k with run := { k.run with queue := qs, gone := k.run.gone ++ [{ q with data := [] }] } }

/-- A core with the loads released by `t`, for looking ahead at a descriptor. -/
def Core.settle : Nat → Nat → Core → Core
  | 0, _, k => k
  | n + 1, t, k =>
    match k.run.queue with
    | q :: _ => if q.known && q.release ≤ t then settle n t k.releaseOne else k
    | [] => k

/-- What a core does next. -/
inductive Next where
  | past (ck : Nat)                             -- its stream has ended without END (R59)
  | fault (ck : Nat) (region : Bool)            -- an undefined encoding, or a transfer of R266 (R248)
  | issue (ck plan cause : Nat) (vxe : Bool)
  | wait                                        -- for something whose ck is not known
  deriving DecidableEq, Repr

/-- The wait for a place in the issue group: a second instruction of a class goes to the next ck (R246). -/
def CoreRun.groupHolds (r : CoreRun) (w : Nat) : List Hold :=
  match r.last, opOf w with
  | some l, some o => if r.group.contains o.cls then [busy (l + 1)] else []
  | _, _ => []

/-- The next issue of a core (R246): the first ck at or after its plan in which every wait is over, its descriptor's and its
group's among them. Lengths are those of that ck; they change only once after the plan, in the ck after the last issue, so
two looks at the waits decide. An undefined encoding faults in that ck too (R248). -/
def Dev.nextOf (d : Dev) (s : Seat) : Next :=
  let r := s.k.run
  match d.tileAt s.p s.x s.slot r.ip with
  | none => .past (r.last.getD 0)
  | some w =>
    let plan := r.planCk w
    match lastHold plan (r.pendingHolds (descOf w) [] ++ r.markHolds (descOf w) []) with
    | none => .wait
    | some h0 =>
      let s := { s with k := s.k.settle r.queue.length h0.1 }
      let look := fun (t : Nat) => let n := d.need s t w; (n, lastHold plan (r.groupHolds w ++ r.holdsOf n))
      let go := fun (n : Need) (t cause : Nat) (vxe : Bool) =>
        if !n.ok then Next.fault t false else if n.region then .fault t true else .issue t plan cause vxe
      let a := look h0.1
      match a.2.filter (·.1 ≤ h0.1) with
      | some h => go a.1 h0.1 (if h.1 < h0.1 then h0.2.1 else h.2.1) (if h.1 < h0.1 then h0.2.2 else h.2.2)
      | none =>
        let b := look (h0.1 + 1)
        match b.2 with
        | none => .wait
        | some h =>
          if h0.1 < h.1 then go b.1 h.1 h.2.1 h.2.2
          else go b.1 (h0.1 + 1) ((a.2.map (·.2.1)).getD 3) ((a.2.map (·.2.2)).getD false)

/-- The ck of what a core does next; none while it waits. -/
def Next.ck : Next → Option Nat
  | .past c => some c
  | .fault c _ => some c
  | .issue c _ _ _ => some c
  | .wait => none

/-! ### Advancing job-local time -/

/-- The job's schedule may reach `t` for slot `slot`: no replay holds it back, no core that issues earlier is left behind,
and of cores that issue in the same ck the lower slot goes first (R34, R55). -/
def Dev.canReach (d : Dev) (x : Ctx) (t slot : Nat) : Bool :=
  x.now ≤ t && x.replays.all (fun r => t < r.ck) &&
  (List.zip (upTo x.cores.length) x.cores).all fun o =>
    if o.1 = slot then true
    else
      match d.seat o.2 with
      | none => true
      | some s =>
        if s.k.run.ended.isSome || s.k.run.gate.isSome then true
        else
          match (d.nextOf s).ck with
          | some c => t < c || (t == c && slot < o.1)
          | none => true

/-- The ck in which the last core reaches the gate the job stands at: A of R36. -/
def Dev.arrival (d : Dev) (x : Ctx) : Nat := (d.runs x).foldl (fun a r => max a ((r.gate.map (·.2)).getD 0)) 0

/-- The schedule may reach `t` as far as a gate goes that every core has reached and that did not stop the job: it opens in
ck A + 1 (R36). -/
def Dev.gateReach (d : Dev) (x : Ctx) (t : Nat) : Bool := !(allAtGate (d.runs x)).isSome || t ≤ d.arrival x + 1

/-- The job's schedule may reach `t` ahead of every issue in that ck. -/
def Dev.reachAll (d : Dev) (x : Ctx) (t : Nat) : Bool :=
  x.now ≤ t && d.gateReach x t && x.cores.all fun c =>
    match d.seat c with
    | none => true
    | some s =>
      if s.k.run.ended.isSome || s.k.run.gate.isSome then true
      else
        match (d.nextOf s).ck with
        | some k => t ≤ k
        | none => true

/-- The earliest release due by `t` on the job's cores: core and its ck (R40). -/
def Dev.firstRelease (d : Dev) (x : Ctx) (t : Nat) : Option (Nat × Nat) :=
  x.cores.foldl (fun a c =>
    match (d.core c).run.queue with
    | q :: _ =>
      if q.known && q.release ≤ t then
        match a with
        | some b => if q.release < b.2 then some (c, q.release) else some b
        | none => some (c, q.release)
      else a
    | [] => a) none

/-- The front transfer of a core is released: its data reaches the scratchpad or HBM (R40, R42, R43). -/
def Dev.release (d : Dev) (x : Ctx) (c : Nat) : Dev :=
  match (d.core c).run.queue with
  | [] => d
  | q :: _ =>
    let d := if q.store && !q.data.isEmpty then
        (d.ownerWrite x.entry.part q.addr q.data).endResidence x.entry.part q.addr (q.addr + q.data.length)
      else d
    d.modCore c fun k => k.releaseOne

/-- Every release due by `t` takes place, in order. -/
def Dev.releases (x : Ctx) (t : Nat) : Nat → Dev → Dev
  | 0, d => d
  | n + 1, d =>
    match d.firstRelease x t with
    | some r => releases x t n (d.release x r.1)
    | none => d

/-- Transfers in the queues of a job's cores. -/
def Dev.queued (d : Dev) (x : Ctx) : Nat := sum (x.cores.map fun c => (d.core c).run.queue.length)

/-- Releases in queue order (R40): each is at least its own and the queue term after the one before. -/
def relink : Nat → List Transfer → List Transfer
  | _, [] => []
  | prev, q :: qs =>
    let r := max q.release (prev + q.bound)
    { q with release := r } :: relink r qs

/-- A queue relinked: its first transfer keeps its release. -/
def CoreRun.relinked (r : CoreRun) (l : List Transfer) : CoreRun :=
  let l := match l with
    | [] => []
    | q :: qs => q :: relink q.release qs
  { r with queue := l, lastRelease := ((l.getLast?).map (·.release)).getD r.lastRelease }

/-- The stores in flight on a job's cores: core and issue ck, release, and whether the release is known. -/
def Dev.storesOf (d : Dev) (x : Ctx) : List ((Nat × Nat) × Nat × Bool) :=
  x.cores.flatMap fun c => ((sure true (d.core c).run.queue).filter (·.store)).map fun q => ((c, q.issue), q.release, q.known)

/-- A load follows the stores it is ordered behind (R44). -/
def Transfer.follow (stores : List ((Nat × Nat) × Nat × Bool)) (q : Transfer) : Transfer :=
  if q.behind.isEmpty then q
  else
    let mine := stores.filter fun s => q.behind.contains s.1
    { q with release := mine.foldl (fun a s => max a s.2.1) q.release, clear := mine.all (·.2.2) }

/-- The releases of a job's transfers in order again, after one of them has moved (R40, R44): `n` rounds, one for each
transfer another can wait behind. -/
def Dev.reorder (x : Ctx) : Nat → Dev → Dev
  | 0, d => d
  | n + 1, d =>
    let stores := d.storesOf x
    reorder x n (x.cores.foldl (fun d c => d.modCore c fun k =>
      { k with run := k.run.relinked (k.run.queue.map (·.follow stores)) }) d)

/-- The job's schedule reaches `t`: releases due take place, and waymark adds become visible. -/
def Dev.advance (d : Dev) (j t : Nat) : Dev :=
  match d.ctx? j with
  | none => d
  | some x =>
    let d := Dev.releases x t (d.queued x) d
    (d.foldAdds j t).modCtx j fun x => { x with now := t }

/-- The rows of a job's schedule run: booted, clocks present, the job running, no save, restore or replay under way (R37,
R38, R55). -/
def Dev.flows (d : Dev) (x : Ctx) : Bool :=
  d.mainUp && d.clk.refPresent && d.clk.level < 64 && x.st == .running && x.lane.isNone && !x.paused

end Sys2Proof.Machine
end

