-- ==== Sys2Proof/Machine/Tiles.lean ====
section
/-! DEFINITION. The meanings of the tile instructions (R245 to R275), of a transfer's landing and release (R40 to R44) and
of gates (R36). -/

namespace Sys2Proof.Machine

/-! ### Bookkeeping of an issue -/

/-- A core's issue state after an instruction of class `cls` issued at `t`, `stall` ck behind its plan (R246, R278). -/
def CoreRun.issued (r : CoreRun) (t stall cls : Nat) (pre : Option (Nat × Nat)) : CoreRun :=
  { r with
    ip := r.ip + 1
    last := some t
    group := if r.last == some t then cls :: r.group else [cls]
    slip := r.slip + stall
    scalePre := pre
    gone := []
    marks := r.marks.filter fun m => t < m.ck
    weights := r.weights.filter fun m => t < m.front + (m.count / m.tp + 1) * m.u + m.tp * m.w + 41
    words := r.words.filter fun w => t ≤ w.plan.wordCk w.front (w.plan.nk - 1) (w.plan.tp - 1) + 38 }

/-- The counters of a core after a stall (R162, R214). -/
def Core.stalled (k : Core) (stall cause : Nat) (vxe : Bool) (job : Nat) : Core :=
  { k with
    vxeWait := if vxe && cause == 3 then satAdd 64 k.vxeWait stall else k.vxeWait
    holds := if cause = 6 then satAdd 64 k.holds 1 else k.holds
    holdCk := if cause = 6 then satAdd 64 k.holdCk stall else k.holdCk
    lastEvent := if cause = 6 then { kind := 4, phys := 0, row := 0, column := 0, job := job } else k.lastEvent }

/-- START_CK of a stall: the plan, or for a read retry the bound of the transfer (R52, R420). -/
def CoreRun.stallStart (r : CoreRun) (t plan cause : Nat) : Nat :=
  if cause = 9 then (((r.gone ++ r.queue).find? fun q => q.late == 9 && q.release == t).map (·.due)).getD plan else plan

/-- The issue of an instruction: its core's state, and a slip record where it stalled (R51, R246). -/
def Dev.book (d : Dev) (s : Seat) (c t plan start cause : Nat) (vxe : Bool) (cls : Nat) (pre : Option (Nat × Nat)) : Dev :=
  let stall := t - plan
  let d := if 0 < stall then
      (d.slipRec s.x c cause (s.x.localCk start) stall s.k.run.ip).modCore c
        fun k => k.stalled stall cause vxe s.x.entry.id
    else d
  d.modCore c fun k => { k with run := k.run.issued t stall cls pre }

/-- The job carries CONTRACT_VIOLATION (R59). -/
def Dev.violate (d : Dev) (j : Nat) : Dev := d.modCtx j fun x => { x with violation := true }

/-- The row a core's next word belongs to; gates by R36. -/
def Dev.opAt (d : Dev) (s : Seat) : Option TileOp :=
  match d.tileAt s.p s.x s.slot s.k.run.ip with
  | none => none
  | some w =>
    match opOf w with
    | some .wmw => some (if s.isGate w then .gate else .wmw)
    | o => o

/-- The core's next step is due, and it is one of row `op`; a stream that has ended or a faulting instruction is due
under every row (R59, R248). -/
def dueTile (op : TileOp) (c : Nat) (d : Dev) : Bool :=
  match d.seat c with
  | none => false
  | some s =>
    d.flows s.x && s.k.run.ended.isNone && s.k.run.gate.isNone &&
    match d.nextOf s with
    | .wait => false
    | .past ck => d.canReach s.x ck s.slot
    | .fault ck _ => d.canReach s.x ck s.slot
    | .issue ck _ _ _ => d.canReach s.x ck s.slot && d.opAt s == some op

/-- ECC met an error it could not correct in data an instruction reads (R250). -/
def Dev.eccReissue (d : Dev) (j c : Nat) : Dev :=
  let d := d.modCore c fun k => { k with uncorrected := satAdd 64 k.uncorrected 1 }
  (d.health 0x04 2 (hUnit 1 c) j []).reissue j

def Ecc.none : Ecc := { corrected := 0, uncorrectable := false }

/-- The next step of a core: `eff` is the instruction's own effect, on the device after the bookkeeping, with the core as it
stood when it issued, its word and its ck. -/
def Dev.tile (d : Dev) (op : TileOp) (c : Nat) (ecc : Ecc) (eff : Dev → Seat → Nat → Nat → Dev) : Dev :=
  match d.seat c with
  | none => d
  | some s =>
    let j := s.x.entry.id
    match d.nextOf s with
    | .wait => d
    | .past ck => (d.advance j ck).teardown j 3 s.k.run.ip s.slot
    | .fault ck region => (d.advance j ck).teardown j (if region then 2 else 1) s.k.run.ip s.slot
    | .issue t plan cause vxe =>
      let start := s.k.run.stallStart t plan cause
      let d := d.advance j t
      let d := d.modCore c fun k => { k with corrected := satAdd 64 k.corrected ecc.corrected }
      if ecc.uncorrectable then d.eccReissue j c
      else
        match d.seat c, d.tileAt s.p s.x s.slot s.k.run.ip with
        | some s, some w =>
          let pre := if op = .prefix_ then some (bits w 24 20, bits w 44 20) else none
          eff (d.book s c t plan start cause vxe op.cls pre) s w t
        | _, _ => d

/-- One tile row. -/
def tileRow (row : String) (op : TileOp) (core : Nat) (ecc : Ecc) (eff : Dev → Seat → Nat → Nat → Dev) (s : State) : Ans :=
  whenDue row (dueTile op core s.dev) s fun d => d.tile op core ecc eff

/-! ### Array -/

/-- Row-step `n` of logical row `row`, counted from 0 over the unmasked ones of an instruction: chunk and step. -/
def ArrPlan.rowSteps (p : ArrPlan) (row : Nat) : List (Nat × Nat) :=
  (upTo p.nk).flatMap fun k => ((upTo p.tp).filter fun t => p.rowOn ((p.on[k]?).getD 0) t row).map fun t => (k, t)

/-- An armed injection fires in an instruction (R165): the chunk and step it hits. A masked column has no residue check
(R146). -/
def Core.fires (k : Core) (j : Nat) (p : ArrPlan) : Option (Nat × Nat) :=
  let i := k.inject
  let before := (k.mem.steps[i.row]?).getD 0
  if i.arm && i.owner == some j && before ≤ i.step then
    match (p.rowSteps i.row)[i.step - before]? with
    | some q => if (((p.cols[q.1]?).getD [])[i.column]?).getD none |>.isSome then some q else none
    | none => none
  else none

/-- An array instruction's effect: `q` at planned lengths, `p` at run-time ones (R149, R224, R273). -/
def Dev.arrayIssue (d : Dev) (s : Seat) (c t : Nat) (q p : ArrPlan) (win : Bool) : Dev :=
  if q.empty then d
  else
    let j := s.x.entry.id
    let k0 := d.core c
    let busFree := match q.loadAt t (q.nk - 1) with
      | some l => l + loadCk q.wide
      | none => k0.run.shadowFree
    let fire := k0.fires j p
    let d := d.modCore c fun k =>
      let r := k.run
      { k with
        mem := p.run k.mem
        inject := if fire.isSome then { k.inject with arm := false, owner := none } else k.inject
        wsqBusy := if win then satAdd 64 k.wsqBusy q.occ else k.wsqBusy
        run := { r with
          arrFree := t + q.occ
          wsqFree := if win then t + q.occ else r.wsqFree
          wsqChunk := if win then { start := t, num := 1, den := q.u, last := q.nk - 1 } else r.wsqChunk
          shadowFree := busFree
          shadowWritable := q.lastFront t + 4
          shadowDone := none
          marks := r.marks ++
            (q.lineMarks (q.front t)).map (fun l => { kind := .line, lo := l.1, hi := l.2.1, ck := l.2.2 : Mark }) ++
            (q.statSpans t).map fun l => { kind := .arrSrc, lo := l.1, hi := l.2.1, ck := l.2.2 : Mark }
          weights := r.weights ++
            [{ base := q.wAddr, step := 32 * q.cbW, count := q.nk * q.tp, tp := q.tp, u := q.u, w := q.w,
               front := q.front t }] ++
            (if fmtIsMx q.wFmt then
               [{ base := q.wScale, step := 128, count := q.nk * q.tp, tp := q.tp, u := q.u, w := q.w,
                  front := q.front t }] else [])
          words := r.words ++ [{ front := q.front t, plan := p }] } }
    match fire with
    | some f =>
      let i := k0.inject
      let ck := q.wordCk (q.front t) f.1 f.2 + 38
      let e : Replay :=
        { ck := ck, slot := s.slot, row := i.row, column := i.column, fails := if i.repeats then i.count else 0 }
      d.modCtx j fun x => { x with replays := x.replays ++ [e] }
    | none => d

/-- MXM (R254, R255). -/
def execMxm (core : Nat) (ecc : Ecc) (s : State) : Host.Outcome State Fault Refusal :=
  tileRow "MXM" .mxm core ecc (fun d s w t =>
    match mxmLens s.k.run t w with
    | some (m, n, k) =>
      d.arrayIssue s core t
        (mxmPlan w s.k.run.scalePre (m.1.2, m.1.2) (n.1.2, n.1.2) (k.1.2, k.1.2))
        (mxmPlan w s.k.run.scalePre m.1 n.1 k.1) false
    | none => d) s

/-- A CNV or DWC (R221 to R227, R258 to R260); an output size that is not positive sets WIN_EMPTY (R218). -/
def Dev.winIssue (d : Dev) (s : Seat) (core t w : Nat) (dwc : Bool) : Dev :=
  match s.win w, winN s.k.run t w dwc with
  | some v, some n =>
    let d := d.modCore core fun k => { k with
      mem := if sizePos (v.outSize v.ih.1 v.iw.1) then k.mem else { k.mem with win := k.mem.win ||| 1 }
      run := { k.run with wsqOp := b2n dwc } }
    d.arrayIssue s core t (winPlan w dwc v s.k.run.scalePre (n.1.2, n.1.2) true) (winPlan w dwc v s.k.run.scalePre n.1 false)
      true
  | _, _ => d

/-- CNV (R221, R224). -/
def execCnv (core : Nat) (ecc : Ecc) (s : State) : Host.Outcome State Fault Refusal :=
  tileRow "CNV" .cnv core ecc (fun d s w t => d.winIssue s core t w false) s

/-- DWC (R226, R227). -/
def execDwc (core : Nat) (ecc : Ecc) (s : State) : Host.Outcome State Fault Refusal :=
  tileRow "DWC" .dwc core ecc (fun d s w t => d.winIssue s core t w true) s

/-- The value of the open digest entry's length register (R325). -/
def CoreRun.digLr (r : CoreRun) (t : Nat) (g : Option DigOpen) : Nat :=
  match g.bind (·.lr) with
  | some n => ((r.lr n).at t).1
  | none => 0

/-- Marks of an instruction of the vector engine: its sources until `free`, its destinations until 24 ck later (R194,
R195). -/
def vxeMarks (reads writes : List (Nat × Nat)) (free : Nat) : List Mark :=
  reads.map (fun l => { kind := .vxeSrc, lo := l.1, hi := l.2, ck := free : Mark }) ++
  writes.map fun l => { kind := .vxeDest, lo := l.1, hi := l.2, ck := free + 24 : Mark }

/-- The position a PLX has reached: E taps in a ck (R231, R242). -/
def plxProgress (v : Win) (fmt t : Nat) : Progress :=
  { start := t, num := plxRate v fmt, den := max 1 (v.chans * v.kh * v.kw), last := v.npos.2 - 1 }

/-- PLX (R228 to R231). -/
def execPlx (core : Nat) (ecc : Ecc) (s : State) : Host.Outcome State Fault Refusal :=
  tileRow "PLX" .plx core ecc (fun d s w t =>
    match s.win w with
    | some v =>
      let f := bits w 24 4
      let o := plxOcc v f
      d.modCore core fun k =>
        { k with
          mem := plxRun v f (s.k.run.digLr t k.mem.dig) k.mem
          vxeBusy := satAdd 64 k.vxeBusy o
          wsqBusy := satAdd 64 k.wsqBusy o
          run := { k.run with
            vxeFree := t + o, wsqFree := t + o, wsqOp := 2, wsqChunk := plxProgress v f t
            marks := k.run.marks ++ vxeMarks (plxReads v f) (plxWrites v f) (t + o) } }
    | none => d) s

/-- SHL (R147, R257). -/
def execShl (core : Nat) (ecc : Ecc) (s : State) : Host.Outcome State Fault Refusal :=
  tileRow "SHL" .shl core ecc (fun d _ w t =>
    let n := loadCk (fmtIs16 (bits w 24 4))
    d.modCore core fun k =>
      { k with
        mem := shlRun w k.mem
        run := { k.run with
          shadowFree := t + n, shadowDone := some (t + n)
          marks := k.run.marks ++ (shlReads w).map fun l => { kind := .arrSrc, lo := l.1, hi := l.2, ck := t + n : Mark } } }) s

/-! ### Vector -/

/-- The row an instruction has reached: elementwise functions pack rows, the others start each row anew (R194, R215). -/
def VecOp.progress (v : VecOp) (vlp vrp t : Nat) : Progress :=
  let rows := ceilDiv vlp 1024
  let den := if v.isTopk then 2 * rows + 2 * (v.k + 1) + 40
    else if v.red then ceilDiv vlp v.rate * v.cost
    else if v.isSoftmax then 9 * rows + 40
    else if v.isNorm then 5 * rows + 48
    else vlp * v.cost
  { start := t, num := if v.isElem then v.rate else 1, den := max 1 den, last := vrp - 1 }

/-- A VOP or VRD other than SETLEN (R189 to R210). -/
def Dev.vecIssue (d : Dev) (s : Seat) (core w t : Nat) : Dev :=
  let v := s.vec w
  let l := s.k.run.vlens t
  let o := v.occ l.2.2.1 l.2.2.2
  let d := if v.overlapping l.2.2.1 l.2.2.2 then d.violate s.x.entry.id else d
  let acm := if v.isAcm 0 then [{ kind := .acmSrc, lo := v.a, hi := v.a + l.2.2.2, ck := t + o : Mark }] else []
  d.modCore core fun k =>
    { k with
      mem := v.run (s.k.run.digLr t k.mem.dig) (min l.1 l.2.2.1) (min l.2.1 l.2.2.2) l.2.2.1 l.2.2.2 k.mem
      vxeBusy := satAdd 64 k.vxeBusy o
      vxe := { fn := v.fn, red := v.red, wide16 := v.ct16, word := w, lens := l, rows := v.progress l.2.2.1 l.2.2.2 t }
      run := { k.run with
        vxeFree := t + o
        marks := k.run.marks ++ vxeMarks (v.reads l.2.2.1 l.2.2.2) (v.writes l.2.2.1 l.2.2.2) (t + o) ++ acm } }

/-- CVT (R188). -/
def execCvt (core : Nat) (ecc : Ecc) (s : State) : Host.Outcome State Fault Refusal :=
  tileRow "CVT" .cvt core ecc (fun d s w t => d.vecIssue s core w t) s

/-- Elementwise arithmetic (R197). -/
def execVopArith (core : Nat) (ecc : Ecc) (s : State) : Host.Outcome State Fault Refusal :=
  tileRow "VOP_ARITH" .arith core ecc (fun d s w t => d.vecIssue s core w t) s

/-- Elementwise functions (R198). -/
def execVopFunction (core : Nat) (ecc : Ecc) (s : State) : Host.Outcome State Fault Refusal :=
  tileRow "VOP_FUNCTION" .function core ecc (fun d s w t => d.vecIssue s core w t) s

/-- Comparisons and SEL (R199). -/
def execVopCompare (core : Nat) (ecc : Ecc) (s : State) : Host.Outcome State Fault Refusal :=
  tileRow "VOP_COMPARE" .compare core ecc (fun d s w t => d.vecIssue s core w t) s

/-- RQNT (R200). -/
def execRqnt (core : Nat) (ecc : Ecc) (s : State) : Host.Outcome State Fault Refusal :=
  tileRow "RQNT" .rqnt core ecc (fun d s w t => d.vecIssue s core w t) s

/-- SOFTMAX (R206). -/
def execSoftmax (core : Nat) (ecc : Ecc) (s : State) : Host.Outcome State Fault Refusal :=
  tileRow "SOFTMAX" .softmax core ecc (fun d s w t => d.vecIssue s core w t) s

/-- LAYERNORM (R207). -/
def execLayernorm (core : Nat) (ecc : Ecc) (s : State) : Host.Outcome State Fault Refusal :=
  tileRow "LAYERNORM" .layernorm core ecc (fun d s w t => d.vecIssue s core w t) s

/-- NMS (R209). -/
def execNms (core : Nat) (ecc : Ecc) (s : State) : Host.Outcome State Fault Refusal :=
  tileRow "NMS" .nms core ecc (fun d s w t => d.vecIssue s core w t) s

/-- Reductions (R201 to R204). -/
def execVrdReduce (core : Nat) (ecc : Ecc) (s : State) : Host.Outcome State Fault Refusal :=
  tileRow "VRD_REDUCE" .reduce core ecc (fun d s w t => d.vecIssue s core w t) s

/-- TOPK (R208). -/
def execTopk (core : Nat) (ecc : Ecc) (s : State) : Host.Outcome State Fault Refusal :=
  tileRow "TOPK" .topk core ecc (fun d s w t => d.vecIssue s core w t) s

/-! ### Control -/

/-- NOP (R247). -/
def execNop (core : Nat) (s : State) : Host.Outcome State Fault Refusal :=
  tileRow "NOP" .nop core Ecc.none (fun d _ _ _ => d) s

/-- A scale prefix (R256): its regions stay with the core until the next instruction issues. -/
def execScalePrefix (core : Nat) (s : State) : Host.Outcome State Fault Refusal :=
  tileRow "SCALE_PREFIX" .prefix_ core Ecc.none (fun d _ _ _ => d) s

/-- A register set at `t`: read from the next ck on (R246, R252). -/
def LReg.set (l : LReg) (t value planned readable : Nat) : LReg :=
  { value := value, planned := planned, oldValue := (l.at t).1, oldPlanned := (l.at t).2, since := t + 1,
    readable := readable }

/-- SETLEN (R190, R252, R264). -/
def execSetlen (core : Nat) (s : State) : Host.Outcome State Fault Refusal :=
  tileRow "SETLEN" .setlen core Ecc.none (fun d s w t =>
    let v := setlenVal w s.x.shapes
    let p := bits w 40 17
    d.modCore core fun k =>
      let r := k.run
      { k with run := match bits w 32 4 with
        | 0 => { r with vl := r.vl.set t v p 0 }
        | 1 => { r with vr := r.vr.set t v p 0 }
        | n => { r with lrs := modAt (fun l => l.set t v p 0) (n - 8) r.lrs } }) s

/-- The digest entry that follows entry `e` on a slot (R326). -/
def Manifest.nextDig (m : Manifest) (slot e : Nat) : Option DigOpen :=
  (m.digs.find? fun g => g.1 == slot && e < g.2.entry).map (·.2)

/-- DGP (R271, R326). -/
def execDgp (core : Nat) (s : State) : Host.Outcome State Fault Refusal :=
  tileRow "DGP" .dgp core Ecc.none (fun d s w _ =>
    let point := bits w 24 12
    match s.k.mem.dig with
    | some g =>
      let bad := point != g.entry
      let d := d.digestRec s.x s.slot g.entry g.layer g.dsum g.dxor g.count bad
      let d := if bad then d.violate s.x.entry.id else d
      d.modCore core fun k => { k with
        mem := { k.mem with dig := s.x.mf.nextDig s.slot g.entry }
        run := { k.run with nextEntry := k.run.nextEntry + 1 } }
    | none =>
      let layer := ((s.x.mf.digs[point]?).map fun g => g.2.layer).getD 0
      (d.digestRec s.x s.slot point layer 0 0 0 true).violate s.x.entry.id) s

/-- The entries of a slot that END finds open or unopened, each recorded with POINT_MISMATCH (R326). -/
def Dev.closeDigests (s : Seat) : Nat → Option DigOpen → Dev → Dev
  | 0, _, d => d
  | _, none, d => d
  | n + 1, some g, d =>
    closeDigests s n (s.x.mf.nextDig s.slot g.entry)
      ((d.digestRec s.x s.slot g.entry g.layer g.dsum g.dxor g.count true).violate s.x.entry.id)

/-- END (R272, R326). -/
def execTileEnd (core : Nat) (s : State) : Host.Outcome State Fault Refusal :=
  tileRow "END" .end_ core Ecc.none (fun d s _ t =>
    let d := Dev.closeDigests s (s.x.mf.digs.length + 1) s.k.mem.dig d
    d.modCore core fun k => { k with mem := { k.mem with dig := none }, run := { k.run with ended := some t } }) s

/-! ### Transfers -/

/-- Bytes `lo` on with the data of a store in flight laid over them (R44). -/
def overlay (lo : Nat) (bs : List Byte) (q : Transfer) : List Byte :=
  (List.zip (upTo bs.length) bs).map fun b =>
    if q.addr ≤ lo + b.1 ∧ lo + b.1 < q.addr + q.data.length then (q.data[lo + b.1 - q.addr]?).getD b.2 else b.2

/-- Transfers in flight on a job's cores, in the order of their issue. -/
def Dev.inFlight (d : Dev) (x : Ctx) : List (Nat × Transfer) :=
  let all := x.cores.flatMap fun c => (d.core c).run.queue.map fun q => (c, q)
  all.foldl (fun l q => (l.takeWhile fun p => p.2.issue ≤ q.2.issue) ++ [q] ++ (l.dropWhile fun p => p.2.issue ≤ q.2.issue)) []

/-- An LDT or STT takes its place in the queue (R39, R40, R42 to R44, R46). A load that overlaps stores other cores issued in
an earlier ck returns their data and is released no earlier than they are; otherwise it returns the earlier data (R44). -/
def Dev.xferIssue (d : Dev) (s : Seat) (core w t : Nat) (store : Bool) : Dev :=
  match xferPlan s t w with
  | none => d
  | some (x, _) =>
    let addr := x.region.base + x.off
    let n := ceilDiv x.planned s.p.b
    let fly := d.inFlight s.x
    let others := fly.filter fun q => q.1 != core && q.2.store != store &&
      touches [(addr, addr + x.run)] (q.2.addr, q.2.addr + q.2.run)
    let rel := max (t + 900 + n) (if s.k.run.queue.isEmpty then 0 else s.k.run.lastRelease + n)
    let data :=
      if store then memBytes s.k.mem.csp (64 * x.csp) x.run
      else (fly.filter fun q => q.2.store && (q.1 == core || q.2.issue < t)).foldl (fun bs q => overlay addr bs q.2)
        (d.ownerRead s.p.id addr x.run)
    let inForced := match s.p.retrain.lull with
      | .forced _ => true
      | _ => false
    let q : Transfer :=
      { store := store, csp := x.csp, planned := x.planned, run := x.run, addr := addr, issue := t, release := rel,
        bound := n, due := rel, late := if inForced then 8 else if 8192 < n then 7 else 0,
        landed := !inForced && n ≤ 8192, data := data,
        behind := if store then [] else (others.filter (·.2.issue < t)).map fun q => (q.1, q.2.issue), clear := true }
    let d := if others.isEmpty then d else d.violate s.x.entry.id
    let d := d.modCore core fun k => { k with run := { k.run with
      queue := k.run.queue ++ [q.follow (d.storesOf s.x)] } }
    d.modCore core fun k => { k with run := k.run.relinked k.run.queue }

/-- LDT (R42, R265, R266). -/
def execLdt (core : Nat) (s : State) : Host.Outcome State Fault Refusal :=
  tileRow "LDT" .ldt core Ecc.none (fun d s w t => d.xferIssue s core w t false) s

/-- STT (R43, R265, R266). -/
def execStt (core : Nat) (ecc : Ecc) (s : State) : Host.Outcome State Fault Refusal :=
  tileRow "STT" .stt core ecc (fun d s w t => d.xferIssue s core w t true) s

/-- TRANSFER_DATA_LAND is due: a transfer without the promise of its bound is in flight (R42, R46). -/
def dueLand (core place ck : Nat) (d : Dev) : Bool :=
  match d.seat core with
  | some s =>
    d.mainUp && !s.x.lane.isSome && s.x.now ≤ ck &&
    (match s.k.run.queue[place]? with | some q => !q.landed && q.issue ≤ ck | none => false)
  | none => false

/-- The last data lands: the release is the later of the bound and this ck (R46); what is ordered behind it follows, on its
own core and, for a store, on the others (R40, R44). -/
def Dev.landData (d : Dev) (core place ck : Nat) : Dev :=
  let land := fun (q : Transfer) => { q with landed := true, release := max q.release ck }
  let d := d.modCore core fun k => { k with run := k.run.relinked (modAt land place k.run.queue) }
  match d.ctxOf core with
  | some x => Dev.reorder x (d.queued x) d
  | none => d

/-- TRANSFER_DATA_LAND (R42). -/
def execTransferDataLand (core place ck : Nat) (s : State) : Host.Outcome State Fault Refusal :=
  whenDue "TRANSFER_DATA_LAND" (dueLand core place ck s.dev) s fun d => d.landData core place ck

/-- TRANSFER_RELEASE is due: the oldest transfer of the queue reaches its release ck (R40). -/
def dueRelease (core place : Nat) (d : Dev) : Bool :=
  match d.seat core with
  | some s =>
    d.flows s.x && place == 0 &&
    (match s.k.run.queue with
     | q :: _ => q.known && d.reachAll s.x q.release && s.x.replays.all fun r => q.release < r.ck
     | [] => false)
  | none => false

/-- TRANSFER_RELEASE (R40). -/
def execTransferRelease (core place : Nat) (s : State) : Host.Outcome State Fault Refusal :=
  whenDue "TRANSFER_RELEASE" (dueRelease core place s.dev) s fun d =>
    match d.seat core with
    | some s =>
      match s.k.run.queue with
      | q :: _ => d.advance s.x.entry.id q.release
      | [] => d
    | none => d

/-! ### Waymarks -/

/-- WMS (R268): seen 24 ck later. -/
def execWms (core : Nat) (s : State) : Host.Outcome State Fault Refusal :=
  tileRow "WMS" .wms core Ecc.none (fun d s w t =>
    d.modCtx s.x.entry.id fun x =>
      { x with adds := x.adds ++ [(s.x.devWm s.p (bits w 24 16), bits w 40 32, t + 24)] }) s

/-- WMW without a gate (R268). -/
def execWmw (core : Nat) (s : State) : Host.Outcome State Fault Refusal :=
  tileRow "WMW" .wmw core Ecc.none (fun d _ _ _ => d) s

/-- A CFA (R269): `f` gives the waymark's new state from the old. A LOAD of a counter breaks the contract (R59). It sets the
register's value only: the planned value stays, a SETLEN's of the same ck too (R252). -/
def Dev.cfa (d : Dev) (s : Seat) (core w t : Nat) (f : Waymark → Waymark) (load : Bool) : Dev :=
  let m := d.wmkAt (s.x.devWm s.p (bits w 24 16))
  let d := if load && m.counter then d.violate s.x.entry.id else d
  let d := d.putWmk (f m)
  d.modCore core fun k => { k with run := { k.run with
    lrs := modAt (fun l => l.set t m.count l.planned (t + 24)) (bits w 72 3) k.run.lrs } }

/-- CFA FETCH_ADD (R269, R270). -/
def execCfaFetchAdd (core : Nat) (s : State) : Host.Outcome State Fault Refusal :=
  tileRow "CFA_FETCH_ADD" .cfaAdd core Ecc.none (fun d s w t =>
    d.cfa s core w t (fun m => { m with count := (m.count + bits w 40 32) % 2 ^ 32 }) false) s

/-- CFA LOAD (R269, R270). -/
def execCfaLoad (core : Nat) (s : State) : Host.Outcome State Fault Refusal :=
  tileRow "CFA_LOAD" .cfaLoad core Ecc.none (fun d s w t => d.cfa s core w t id true) s

/-- CFA INIT (R269, R270). -/
def execCfaInit (core : Nat) (s : State) : Host.Outcome State Fault Refusal :=
  tileRow "CFA_INIT" .cfaInit core Ecc.none (fun d s w t =>
    d.cfa s core w t (fun m => { m with count := bits w 40 32, counter := true }) false) s

/-- A core reaches a gate (R36, R53): a wait for its place in an issue group (R246) is slip before that. -/
def Dev.reachGate (d : Dev) (core : Nat) : Dev :=
  match d.seat core with
  | none => d
  | some s =>
    let j := s.x.entry.id
    match d.nextOf s with
    | .wait => d
    | .past ck => (d.advance j ck).teardown j 3 s.k.run.ip s.slot
    | .fault ck region => (d.advance j ck).teardown j (if region then 2 else 1) s.k.run.ip s.slot
    | .issue t plan cause _ =>
      let d := d.advance j t
      let d := if plan < t then
          (d.slipRec s.x core cause (s.x.localCk plan) (t - plan) s.k.run.ip).modCore core
            fun k => { k with run := { k.run with slip := k.run.slip + (t - plan) } }
        else d
      match d.seat core, d.tileAt s.p s.x s.slot s.k.run.ip with
      | some s, some w =>
        match s.gateFor (bits w 24 16) with
        | none => d
        | some e =>
          let due := ((s.x.mf.gates[e]?).map (·.1)).getD 0 + s.k.run.slip
          let off := if t < due then due - t else t - due
          let d := if 0 < off then
              (d.slipRec s.x core 0x0B (s.x.localCk t) off s.k.run.ip).violate j
            else d
          let d := if bitAt w 4 then d else d.violate j
          let d := d.modCore core fun k => { k with run := { k.run with gate := some (e, t) } }
          match d.ctx? j with
          | some x =>
            if (allAtGate (d.runs x)).isSome && !d.gateSat s.p x then
              let far := x.adds.foldl (fun a b => max a b.2.2) 0
              (d.foldAdds j far).modCtx j fun x => { x with st := .blocked, blockedTick := d.ticks }
            else d
          | none => d
      | _, _ => d

/-- GATE (R36). -/
def execGate (core : Nat) (s : State) : Host.Outcome State Fault Refusal :=
  whenDue "GATE" (dueTile .gate core s.dev) s fun d => d.reachGate core

/-- The partition takes a retraining lull outside its jobs' time: starts, restores and gate openings wait (R417). -/
def Part.held (p : Part) : Bool :=
  match p.retrain.lull with
  | .retrain _ => true
  | _ => false

/-- GATE_OPEN is due: every core is at the gate, and its waymark is satisfied (R36, R417). -/
def dueGateOpen (job : Nat) (d : Dev) : Bool :=
  match d.ctx? job with
  | some x =>
    match d.part? x.entry.part with
    | some p =>
      d.mainUp && d.clk.refPresent && d.clk.level < 64 && (x.st == .running || x.st == .blocked) && x.lane.isNone &&
      !x.paused && !p.held && d.gateSat p x &&
      x.replays.all fun r => d.arrival x + 1 < r.ck
    | none => false
  | none => false

/-- The gate opens on all cores in ck A + 1 (R36). -/
def Dev.openGate (d : Dev) (job : Nat) : Dev :=
  match d.ctx? job with
  | none => d
  | some x =>
    let a := d.arrival x
    let d := d.advance job (a + 1)
    let d := x.cores.foldl (fun d c => d.modCore c fun k =>
      match k.run.gate with
      | none => k
      | some g =>
        let due := ((x.mf.gates[g.1]?).map (·.1)).getD 0
        { k with run := { k.run with
            ip := k.run.ip + 1, last := some (a + 1), group := [5], slip := a - due, scalePre := none, gate := none
            passed := k.run.passed ++ [g.1] } }) d
    d.modCtx job fun x => { x with st := .running }

/-- GATE_OPEN (R36). -/
def execGateOpen (job : Nat) (s : State) : Host.Outcome State Fault Refusal :=
  whenDue "GATE_OPEN" (dueGateOpen job s.dev) s fun d => d.openGate job

end Sys2Proof.Machine
end

