-- ==== Sys2Proof/Machine/Dispatcher.lean ====
section
/-! DEFINITION. The dispatcher: which job starts next and how (R33, R50, R133 to R135, R267, R360 to R363), the save lane
and becalming (R364 to R367), and the commands on contexts (R372 to R374). -/

namespace Sys2Proof.Machine

/-! ### What a partition has free -/

/-- Free cores of a partition, ascending (R33). -/
def Dev.freeCores (d : Dev) (p : Part) : List Nat := p.cores.filter fun c => (d.core c).job.isNone

/-- Contexts of a partition. -/
def Dev.partCtxs (d : Dev) (p : Nat) : List Ctx := d.ctxs.filter (·.entry.part == p)

/-- Save slots of a partition that count (R381). -/
def Part.slots (p : Part) : Nat := min (bits p.save 48 13) (min 4096 p.maxCtx)

/-- The lowest free save slot (R359, R364). -/
def Dev.freeSlot (d : Dev) (p : Part) : Option Nat :=
  (upTo p.slots).find? fun s => !(d.partCtxs p.id).any fun x => x.saveSlot == some s

/-- The lowest free block of `n` waymarks in the private pool (R267). -/
def Dev.freeBlock (d : Dev) (p : Part) (n : Nat) : Option Nat :=
  let lo := p.wmFirst + p.shared
  let used := (d.partCtxs p.id).map fun x => (x.wmBase, x.wmBase + x.mf.wmCount)
  let ok := (lo :: used.map (·.2)).filter fun b =>
    lo ≤ b && b + n ≤ p.wmFirst + p.wmCount && !used.any fun u => overlaps b (b + n) u.1 u.2
  match ok with
  | [] => none
  | b :: bs => some (bs.foldl min b)

/-- A waiting job of the current epoch holds the partition's dispatch list from S on (R363). -/
def Dev.musterHold (d : Dev) (p : Part) : Bool :=
  d.dau.startTick.isSome && p.mustered.any fun e =>
    match e.src with
    | .host _ _ _ _ epoch => epoch == d.dau.epoch
    | _ => false

/-! ### What the head of the list would do -/

/-- A job checked for its start: `status` 0 where it may run, else what it ends with, and the failed check (R49, R50,
R362). -/
structure JobPlan where
  status : Nat
  check : Nat
  mf : Manifest
  shapes : List Nat
  deriving DecidableEq, Repr

/-- A host job's function owns the partition, and its manifest and shape block lie in granted HBM (R362, check 1). -/
def hostOwns (p : Part) (e : JobEntry) : Bool :=
  match e.src with
  | .host _ _ off _ _ => p.owner == e.fn && e.mf + 256 ≤ p.granted && (off == 0 || off + 64 ≤ p.granted)
  | _ => true

/-- The run-time value of each shape variable (R135, R294, R357). -/
def Dev.shapesOf (d : Dev) (p : Part) (e : JobEntry) (m : Manifest) : List Nat :=
  let plan := m.shapes.map (·.1)
  match e.src with
  | .host _ _ off _ _ =>
    if off = 0 then plan else (upTo plan.length).map fun i => ofLe (d.partRead p (off + 4 * i) 4)
  | .route r ts =>
    let desc := d.routeDesc r
    let prm := ((ts[0]?).map (·.params)).getD []
    modAt (fun _ => at_ prm 8 2) (at_ desc 3 1) (modAt (fun _ => at_ prm 0xA 2) (at_ desc 2 1) plan)
  | .seq _ _ _ step _ n => modAt (fun _ => n) (at_ (d.stepTrk step) 0x15 1) plan

/-- The checks of a job before its start, in order (R49, R50, R362). -/
def Dev.jobPlan (d : Dev) (p : Part) (e : JobEntry) : JobPlan :=
  let bound := match e.src with
    | .host _ _ _ _ _ => false
    | _ => true
  let m := d.manifest p e.mf
  let c := if !hostOwns p e then 1 else d.manifestCheck p bound (p.resident.any (·.mf == e.mf)) e.mf
  if c != 0 then { status := 0x11, check := c, mf := m, shapes := [] }
  else
    let sh := d.shapesOf p e m
    let exceeds := (List.zip sh m.shapes).any fun q => q.2.1 < q.1
    { status := if exceeds then 0x10 else 0, check := 0, mf := m, shapes := sh }

/-- The manifest offset of variant `k` of a route (R123). -/
def variant (desc : List Byte) (k : Nat) : Nat := at_ desc (0x20 + 8 * k) 8

/-- What makes tensors of one bucket: the manifest of VARIANT[0] and the tensor's layout (R134). -/
def bucketKey (e : JobEntry) : Option (Nat × List Nat) :=
  match e.src with
  | .route _ ts => (ts[0]?).map fun t =>
      (e.mf, [at_ t.params 8 2, at_ t.params 0xA 2, at_ t.params 0x12 1, at_ t.params 0x10 1, at_ t.params 0x11 1,
              at_ t.params 0x13 1])
  | _ => none

/-- One job over the tensors of several entries, in commit order; it keeps the identifier of the oldest. -/
def mergeEntries (e : JobEntry) (mf : Nat) (es : List JobEntry) : JobEntry :=
  let ts := es.flatMap fun x => match x.src with
    | .route _ l => l
    | _ => []
  match e.src with
  | .route r _ => { e with src := .route r ts, mf := mf, inBufs := es.flatMap (·.inBufs), outBufs := es.flatMap (·.outBufs) }
  | _ => e

/-- The job the head of a list stands for: alone, or its bucket's batch (R133, R134); `none` where no variant fits the free
cores. -/
def Dev.headJob (d : Dev) (p : Part) : List JobEntry → Option (JobEntry × List Nat)
  | [] => none
  | e :: l =>
    match e.src with
    | .route r _ =>
      let desc := d.routeDesc r
      if bitAt (at_ desc 1 1) 0 && d.hw1 (inputDepot p.id) then
        let bucket := (e :: l).filter fun x => bucketKey x == bucketKey e
        let free := (d.freeCores p).length
        let fits := [3, 2, 1, 0].find? fun k =>
          variant desc k != 0 && 2 ^ k ≤ bucket.length && (d.manifest p (variant desc k)).cores ≤ free
        fits.map fun k =>
          let es := bucket.take (2 ^ k)
          (mergeEntries e (variant desc k) es, es.map (·.id))
      else some (e, [e.id])
    | _ => some (e, [e.id])

/-- The partition's dispatcher may start or restore: booted, clocks present, sealed, HBM open, requests enabled, no
retraining lull outside job time (R355, R374, R417). -/
def Dev.mayStart (d : Dev) (p : Part) : Bool :=
  d.mainUp && d.clk.refPresent && d.sealed && d.mem.open_ && d.mayRequest p.owner && !p.held

/-- A job that passed its checks has its cores, waymarks and room (R360). -/
def Dev.fits (d : Dev) (p : Part) (m : Manifest) : Bool :=
  m.cores ≤ (d.freeCores p).length && (d.freeBlock p m.wmCount).isSome && (d.partCtxs p.id).length < p.maxCtx

/-- A becalmed context is runnable (R359). -/
def Ctx.runnable (x : Ctx) : Bool := x.st == .becReady && x.lane.isNone

/-- The runnable becalmed context that comes first (R360). -/
def Dev.firstReady (d : Dev) (p : Nat) : Option Ctx :=
  (d.partCtxs p).foldl (fun a x =>
    if x.runnable then
      match a with
      | some b => if x.readySeq < b.readySeq ∨ (x.readySeq = b.readySeq ∧ x.entry.id < b.entry.id) then some x else some b
      | none => some x
    else a) none

/-! ### The save lane (R365) -/

/-- Bytes of a save or restore. -/
def Ctx.saveBytes (x : Ctx) : Nat := x.mf.cores * (x.mf.cspBytes + x.mf.acmBytes + 585728)

/-- Ticks of a save or restore: 1 µs and its bytes at 512 GB/s. -/
def Ctx.laneTicks (x : Ctx) : Nat := usTicks + ceilDiv (13 * x.saveBytes) 1280

/-- Ticks of a retraining lull (R416). -/
def retrainTicks : Nat := 1560 * mkTicks

/-- The lane takes its next request; an unforced lull of the common pool holds it back, a forced one adds 1.2 µs
(R418). -/
def Dev.laneNext (d : Dev) : Dev :=
  let held := match d.mem.commonRetrain.lull with
    | .retrain _ => true
    | _ => false
  let late := match d.mem.commonRetrain.lull with
    | .forced _ => retrainTicks
    | _ => 0
  match d.mem.laneBusy, d.mem.laneQueue with
  | none, j :: js =>
    if held then d
    else { d with mem := { d.mem with laneBusy := some j, laneStart := d.ticks + late, laneQueue := js } }
  | _, _ => d

/-- A request joins the lane. -/
def Dev.laneJoin (d : Dev) (j : Nat) : Dev :=
  ({ d with mem := { d.mem with laneQueue := d.mem.laneQueue ++ [j] } } : Dev).laneNext

/-- The lane has carried a job's bytes. -/
def Dev.laneDone (d : Dev) (x : Ctx) : Bool :=
  d.mem.laneBusy == some x.entry.id && d.mem.laneStart + x.laneTicks ≤ d.ticks

/-- A resident context goes to a save slot (R364, R365); one that replays joins the lane when the replay has ended (R60).
A context whose save is under way keeps that one save (R376). -/
def Dev.becalm (d : Dev) (x : Ctx) (slot : Nat) (target : CtxSt) (by_ : Option HeldBy) : Dev :=
  let d := d.modCtx x.entry.id fun y => { y with lane := some (.save target), saveSlot := some slot, heldBy := by_ }
  if x.paused then d else d.laneJoin x.entry.id

/-- A FUNCTION_STOPPED record of a context that Bus Master Enable becalmed; the context becomes runnable (R374). -/
def Dev.unstop (d : Dev) (j : Nat) : Dev :=
  match d.ctx? j with
  | none => d
  | some x =>
    let d := d.faultRec x.entry 0x40 0x10 0 0 x.attempt (x.localCk x.now) noIp 0
    let n := d.nextReady
    let d := d.modCtx j fun y =>
      if y.st == .held && y.heldBy == some .busMaster then { y with st := .becReady, heldBy := none, readySeq := n } else y
    d.modFn x.entry.fn fun f => { f with stopped := f.stopped.filter (· != j) }

/-- A core whose context has been saved at schedule ck `now`. -/
def Core.park (k : Core) (now : Nat) : Core := { k.cut now with job := none, slot := 0, run := CoreRun.start }

/-- A core takes up a saved context: its units go on with the work that was under way (R211, R239, R366). -/
def Core.takeUp (k : Core) (v : CoreSave) (now : Nat) : Core :=
  let n := v.run.ahead now
  { k with mem := v.mem, run := v.run, vxe := if 0 < n.1 then v.vxe else k.vxe,
           vxeBusy := satAdd 64 k.vxeBusy n.1, wsqBusy := satAdd 64 k.wsqBusy n.2 }

/-- Where a partition's save slot lies in its function's COMMON grant (R366, R381). -/
def Part.slotBase (p : Part) (slot : Nat) : Nat := bits p.save 21 27 * 2 ^ 21 + slot * p.cores.length * 53477376

/-- A partition's save area lies inside what its function was granted (R377). -/
def Dev.saveAreaOk (d : Dev) (p : Part) : Bool :=
  decide (p.slotBase 0 + p.slots * (p.cores.length * 53477376) ≤ (d.commonGrant p.owner).2)

/-- The bytes of a save reach its slot in HBM (R22, R365), none where the save area lies outside the grant (R377); what they
are is free. -/
def Dev.writeSave (d : Dev) (x : Ctx) : Dev :=
  match d.part? x.entry.part, x.saveSlot with
  | some p, some s =>
    let bs := (upTo x.saveBytes).map (Config.saveByte d.free ·)
    if d.saveAreaOk p then ({ d with free := d.free + 1 } : Dev).commonWrite p.owner (p.slotBase s) bs else d
  | _, _ => d

/-- A save completes (R364, R365, R376). -/
def Dev.saved (d : Dev) (j : Nat) : Dev :=
  match d.ctx? j with
  | none => d
  | some x =>
    match x.lane with
    | some (.save target) =>
      let d := (d.flushStores x).writeSave x
      let sv := x.cores.map fun c =>
        let k := d.core c
        ({ mem := k.mem, run := { k.run with judgedTo := x.now + 1 }, vxe := k.vxe } : CoreSave)
      let d := x.cores.foldl (fun d c => d.modCore c fun k => k.park x.now) d
      let d := d.modCtx j fun y =>
        { y with saved := sv, cores := [], lane := none, st := target, becalmed := y.becalmed + 1 }
      let d := (d.leaveLane j).laneNext
      let d := d.modFn x.entry.fn fun f => { f with dspCnt := bump 2 1 f.dspCnt }
      if target = .becBlocked then d.wakeBlocked x.entry.part
      else if x.heldBy = some .busMaster ∧ d.mayRequest x.entry.fn then d.unstop j
      else d
    | _ => d

/-- A restore begins onto the first free cores (R360, R366). -/
def Dev.restore (d : Dev) (x : Ctx) (cs : List Nat) : Dev :=
  let d := (List.zip (upTo cs.length) cs).foldl (fun d q => d.modCore q.2 fun k =>
    { k with job := some x.entry.id, slot := q.1 }) d
  (d.modCtx x.entry.id fun y => { y with lane := some (.restore cs) }).laneJoin x.entry.id

/-- A restore completes: job-local time resumes where it stopped (R366). -/
def Dev.restored (d : Dev) (j : Nat) : Dev :=
  match d.ctx? j with
  | none => d
  | some x =>
    match x.lane, d.part? x.entry.part with
    | some (.restore cs), some p =>
      let d := (List.zip cs x.saved).foldl (fun d q => d.modCore q.1 fun k =>
        k.takeUp q.2 x.now) d
      let d := d.modCtx j fun y =>
        { y with cores := cs, coreMask := coreMask cs, saved := [], saveSlot := none, lane := none, st := .running,
                 residentTick := d.ticks }
      let d := (d.leaveLane j).laneNext
      match d.ctx? j with
      | some y =>
        if (allAtGate (d.runs y)).isSome && !d.gateSat p y then
          d.modCtx j fun y => { y with st := .blocked, blockedTick := d.ticks }
        else d
      | none => d
    | _, _ => d

/-- A restore is abandoned: the context stays becalmed with its slot (R376). -/
def Dev.dropRestore (d : Dev) (x : Ctx) : Dev :=
  let d : Dev := { d with cores := d.cores.map fun k => if k.job == some x.entry.id then k.park x.now else k }
  let d := d.modCtx x.entry.id fun y => { y with lane := none }
  (d.leaveLane x.entry.id).laneNext

/-! ### Starting a job -/

/-- Regions of a kind bound to addresses in order (R135, R294); regions beyond the addresses keep their BASE. -/
def bindKind (k : Nat) : List Nat → List Region → List Region
  | _, [] => []
  | [], rs => rs
  | a :: as, r :: rs => if r.kind = k then { r with base := a } :: bindKind k as rs else r :: bindKind k (a :: as) rs

/-- Bytes of one crop of a task: HWC without halo, three channels (R130, R232). -/
def cropStride (w h fmt : Nat) : Nat := h * roundUp (w * 3 * (if fmt < 2 then 1 else 2)) 64

/-- The regions of a job as the dispatcher binds them (R135, R294). -/
def Dev.bound (d : Dev) (p : Part) (e : JobEntry) (m : Manifest) : List Region :=
  let ins := e.inBufs.map (d.bufAddr (inputDepot p.id))
  let outs := e.outBufs.map (d.bufAddr (outputDepot p.id))
  match e.src with
  | .host _ _ _ _ _ => m.regions
  | .route _ _ => bindKind 1 outs (bindKind 0 ins m.regions)
  | .seq r _ _ step first _ =>
    let t := d.stepTrk step
    let off := first * cropStride (trkCropW t) (trkCropH t) (at_ (d.routeDesc r) 0x50 1)
    bindKind 1 outs (bindKind 0 (((ins.take 1).map (· + off)) ++ ins.drop 1) m.regions)

/-- The input digests of a job (R328). -/
def Dev.inputDigests (d : Dev) (p : Part) (e : JobEntry) (m : Manifest) : List (Nat × Nat) :=
  match e.src with
  | .host _ _ _ _ _ => (m.regions.filter (·.kind == 0)).map fun r => byteDigest 0 (d.partRead p r.base r.len) (0, 0)
  | .route _ ts => ts.map fun t => (t.digSum, t.digXor)
  | .seq _ _ _ _ _ _ => e.digests

/-- A job starts on the first free cores (R33, R34, R267, R360, R361). -/
def Dev.startJob (d : Dev) (p : Part) (e : JobEntry) (pl : JobPlan) : Dev :=
  let cs := (d.freeCores p).take pl.mf.cores
  let base := (d.freeBlock p pl.mf.wmCount).getD (p.wmFirst + p.shared)
  let d := cs.foldl (fun d c => d.mapOutSuspect c) d
  let r := d.makeResident p pl.mf
  let d := r.2.clearWmk base (base + pl.mf.wmCount)
  let e : JobEntry := { e with digests := d.inputDigests p e pl.mf }
  let x : Ctx :=
    { entry := e, mf := pl.mf, shapes := pl.shapes, regions := d.bound p e pl.mf, st := .running, heldBy := none,
      lane := none, cores := cs, coreMask := coreMask cs, saved := [], saveSlot := none, attempt := 0, base := 0,
      replayCk := 0, now := 0, pauses := [], paused := false, replays := [], spent := [], violation := false,
      becalmed := 0, wmBase := base, adds := [], residentTick := d.ticks, blockedTick := d.ticks, readySeq := 0,
      weightDigest := r.1 }
  let d := (List.zip (upTo cs.length) cs).foldl (fun d q => d.modCore q.2 fun k =>
    (k.begin e.id q.1 (pl.mf.firstDig q.1) false).adopt e.id) d
  let seq := match e.src with
    | .seq _ _ _ _ _ _ => 1
    | _ => 0
  let d := d.modFn e.fn fun f => { f with
    dspCnt := bump 0 1 f.dspCnt
    trkCnt := bump 3 seq f.trkCnt
    preCnt := if 1 < e.inBufs.length && (match e.src with | .route _ _ => true | _ => false) then bump 2 1 f.preCnt
      else f.preCnt }
  { d with ctxs := d.ctxs ++ [x] }

/-- The entries of a list that a decision takes leave it. -/
def Dev.takeIds (d : Dev) (p : Nat) (ids : List Nat) : Dev :=
  d.modPart p fun q => { q with
    list := q.list.filter fun e => !ids.contains e.id, mustered := q.mustered.filter fun e => !ids.contains e.id }

/-- A checked job runs, or ends with nothing run (R49, R50); only a refused manifest writes a fault record (R370). -/
def Dev.runPlan (d : Dev) (p : Part) (e : JobEntry) (ids : List Nat) (pl : JobPlan) : Dev :=
  let d := d.takeIds p.id ids
  if pl.status = 0 then d.startJob p e pl else d.endUnstarted e pl.status 0 pl.check (pl.status == 0x11)

/-- The decision at the head of a list: a job that starts, or one that ends without running; none while it waits. -/
def Dev.headMove (d : Dev) (p : Part) : Option (JobEntry × List Nat × JobPlan) :=
  if d.musterHold p then none
  else
    match d.headJob p p.list with
    | none => none
    | some h =>
      let pl := d.jobPlan p h.1
      if pl.status != 0 || d.fits p pl.mf then some (h.1, h.2, pl) else none

/-- JOB_START is due: a runnable becalmed context has its cores, or, where none is runnable, the head of the list moves
(R360). -/
def dueJobStart (part : Nat) (d : Dev) : Bool :=
  match d.part? part with
  | none => false
  | some p =>
    d.mayStart p &&
    match d.firstReady part with
    | some x => decide (x.mf.cores ≤ (d.freeCores p).length)
    | none => (d.headMove p).isSome

/-- One start decision (R360). -/
def Dev.jobStart (d : Dev) (part : Nat) : Dev :=
  match d.part? part with
  | none => d
  | some p =>
    match d.firstReady part with
    | some x => d.restore x ((d.freeCores p).take x.mf.cores)
    | none =>
      match d.headMove p with
      | some h => d.runPlan p h.1 h.2.1 h.2.2
      | none => d

/-- JOB_START (R360). -/
def execJobStart (part : Nat) (s : State) : Host.Outcome State Fault Refusal :=
  whenDue "JOB_START" (dueJobStart part s.dev) s fun d => d.jobStart part

/-! ### Completion and watchdog -/

/-- JOB_COMPLETE is due: every core has retired END and no replay is owed (R35). -/
def dueComplete (job : Nat) (d : Dev) : Bool :=
  match d.ctx? job with
  | some x => d.flows x && (lastEnd (d.runs x)).isSome && x.replays.isEmpty
  | none => false

/-- JOB_COMPLETE (R35, R54). -/
def execJobComplete (job : Nat) (s : State) : Host.Outcome State Fault Refusal :=
  whenDue "JOB_COMPLETE" (dueComplete job s.dev) s fun d => d.complete job

/-- The schedule ck at which the watchdog limit falls: the ck of replays and of earlier attempts do not move it (R58). -/
def Ctx.watchdogAt (x : Ctx) : Nat := x.watchdogCk - x.base - x.replayCk

/-- WATCHDOG is due: job-local time reaches the limit and some core has not retired END (R58). -/
def dueWatchdog (job : Nat) (d : Dev) : Bool :=
  match d.ctx? job with
  | some x =>
    d.flows x && (lastEnd (d.runs x)).isNone && d.reachAll x x.watchdogAt && x.replays.all fun r => x.watchdogAt < r.ck
  | none => false

/-- WATCHDOG (R58). -/
def execWatchdog (job : Nat) (s : State) : Host.Outcome State Fault Refusal :=
  whenDue "WATCHDOG" (dueWatchdog job s.dev) s fun d =>
    match d.ctx? job with
    | some x => ((d.advance job x.watchdogAt).teardown job 4 noIp 0).laneNext
    | none => d

/-! ### Saves, restores, eviction -/

/-- SAVE_COMPLETE is due (R60, R365). -/
def dueSave (job : Nat) (d : Dev) : Bool :=
  match d.ctx? job with
  | some x => d.mainUp && d.laneDone x && !x.paused && (match x.lane with | some (.save _) => true | _ => false)
  | none => false

/-- SAVE_COMPLETE (R365). -/
def execSaveComplete (job : Nat) (s : State) : Host.Outcome State Fault Refusal :=
  whenDue "SAVE_COMPLETE" (dueSave job s.dev) s fun d => d.saved job

/-- RESTORE_COMPLETE is due (R365, R417). -/
def dueRestore (job : Nat) (d : Dev) : Bool :=
  match d.ctx? job with
  | some x =>
    d.mainUp && d.clk.refPresent && d.laneDone x &&
    (match x.lane with | some (.restore _) => true | _ => false) &&
    (match d.part? x.entry.part with | some p => !p.held | none => false)
  | none => false

/-- RESTORE_COMPLETE (R366). -/
def execRestoreComplete (job : Nat) (s : State) : Host.Outcome State Fault Refusal :=
  whenDue "RESTORE_COMPLETE" (dueRestore job s.dev) s fun d => d.restored job

/-- Cores the partition's runnable context needs: a runnable becalmed context, or a head that is ready to start but for
its cores (R367). -/
def Dev.needCores (d : Dev) (p : Part) : Option Nat :=
  match d.firstReady p.id with
  | some x => some x.mf.cores
  | none =>
    if d.musterHold p then none
    else
      match p.list with
      | [] => none
      | e :: _ =>
        let pl := d.jobPlan p e
        if pl.status == 0 && (d.freeBlock p pl.mf.wmCount).isSome && decide ((d.partCtxs p.id).length < p.maxCtx) then
          some pl.mf.cores
        else none

/-- Blocked contexts in the order of eviction: longest blocked first, then the lower JOB (R367). -/
def insertBlocked (x : Ctx) : List Ctx → List Ctx
  | [] => [x]
  | y :: ys =>
    if x.blockedTick < y.blockedTick ∨ (x.blockedTick = y.blockedTick ∧ x.entry.id < y.entry.id) then x :: y :: ys
    else y :: insertBlocked x ys

/-- The blocked contexts of a partition with no save under way, in that order; `old` keeps those resident for 2 ms. -/
def Dev.blocked (d : Dev) (p : Nat) (old : Bool) : List Ctx :=
  ((d.partCtxs p).filter fun x =>
    x.st == .blocked && x.lane.isNone && (!old || x.residentTick + 2 * msTicks ≤ d.ticks)).foldl
    (fun l x => insertBlocked x l) []

/-- Cores a partition has free, or will have when the saves under way complete. -/
def Dev.coming (d : Dev) (p : Part) : Nat :=
  (d.freeCores p).length + sum (((d.partCtxs p.id).filter fun x =>
    match x.lane with | some (.save _) => true | _ => false).map (·.cores.length))

/-- The contexts an eviction takes: as few as give the cores (R367). -/
def evictees : Nat → Nat → List Ctx → List Ctx
  | _, _, [] => []
  | have_, need, x :: xs => if need ≤ have_ then [] else x :: evictees (have_ + x.cores.length) need xs

/-- The eviction the dispatcher makes now (R367); none where its conditions do not hold or a slot is missing (R364). -/
def Dev.eviction (d : Dev) (p : Part) : List Ctx :=
  match d.needCores p with
  | none => []
  | some n =>
    let bl := d.blocked p.id true
    let have_ := d.coming p
    let all := have_ + sum (bl.map (·.cores.length))
    let ev := evictees have_ n bl
    let free := p.slots - ((d.partCtxs p.id).filter (·.saveSlot.isSome)).length
    if have_ < n ∧ n ≤ all ∧ ev.length ≤ free then ev else []

/-- EVICT is due: an eviction of R367, or a blocked context while the device drains (R468). -/
def dueEvict (part : Nat) (d : Dev) : Bool :=
  match d.part? part with
  | some p =>
    d.mainUp &&
    (if d.lwd.st == .draining then !(d.blocked part false).isEmpty else d.mayStart p && !(d.eviction p).isEmpty)
  | none => false

/-- Each context of an eviction goes to a slot. -/
def Dev.evictAll (d : Dev) (part : Nat) (xs : List Ctx) : Dev :=
  xs.foldl (fun d x =>
    match d.part? part with
    | some p =>
      match d.freeSlot p with
      | some s => d.becalm x s .becBlocked none
      | none => d
    | none => d) d

/-- EVICT's effect (R367); a draining device tears a blocked context down where it has no slot (R468). -/
def Dev.evict (d : Dev) (part : Nat) : Dev :=
  match d.part? part with
  | none => d
  | some p =>
    if d.lwd.st = .draining then
      match d.blocked part false with
      | [] => d
      | x :: _ =>
        match d.freeSlot p with
        | some s => d.becalm x s .becBlocked none
        | none => d.teardown x.entry.id 9 noIp 0
    else d.evictAll part (d.eviction p)

/-- EVICT (R367, R468). -/
def execEvict (part : Nat) (s : State) : Host.Outcome State Fault Refusal :=
  whenDue "EVICT" (dueEvict part s.dev) s fun d => d.evict part

/-! ### Muster starts (R335, R363) -/

/-- The start point has come, on the core clock (R335, R338). -/
def Dev.musterDue (d : Dev) : Bool :=
  match d.dau.startCk with
  | some t => decide (t ≤ d.coreRun)
  | none => false

/-- The start point's wall time is over: what starts now starts late (R335). -/
def Dev.musterLate (d : Dev) : Bool :=
  match d.dau.startTick with
  | some t => decide (t < d.ticks)
  | none => false

/-- A mustered job of the current epoch that can move now: at the start point its manifest must be resident, later its
checks have been made. -/
def Dev.musterMove (d : Dev) (p : Part) : Option (JobEntry × JobPlan) :=
  (p.mustered.filterMap fun e =>
    match e.src with
    | .host _ _ _ _ epoch =>
      let pl := d.jobPlan p e
      if epoch == d.dau.epoch && (d.musterLate || (p.resident.any (·.mf == e.mf) && pl.status == 0)) &&
          (pl.status != 0 || d.fits p pl.mf) then some (e, pl) else none
    | _ => none).head?

/-- MUSTER_START is due: the start point has come, and a waiting job of the epoch can start. -/
def dueMusterStart (d : Dev) : Bool :=
  d.musterDue && d.parts.any fun p => p.defined && d.mayStart p && decide (d.clk.level < 64) && (d.musterMove p).isSome

/-- One mustered job starts, with LATE_START after the start point (R335, R343). -/
def Dev.musterOne (d : Dev) (p : Part) : Dev :=
  match d.musterMove p with
  | none => d
  | some h =>
    let late := d.musterLate
    let d := d.runPlan p h.1 [h.1.id] h.2
    if late && h.2.status == 0 then ({ d with dau := { d.dau with lateStart := true } } : Dev).fire .lateStart else d

/-- The waiting jobs of a partition start in arrival order, as many as can. -/
def Dev.musterPart (pid : Nat) : Nat → Dev → Dev
  | 0, d => d
  | n + 1, d =>
    match d.part? pid with
    | some p => if d.mayStart p then musterPart pid n (d.musterOne p) else d
    | none => d

/-- MUSTER_START (R363). -/
def execMusterStart (s : State) : Host.Outcome State Fault Refusal :=
  whenDue "MUSTER_START" (dueMusterStart s.dev) s fun d =>
    (upTo 6).foldl (fun d pid => Dev.musterPart pid (((d.part? pid).map (·.mustered.length)).getD 0) d) d

/-! ### Commands on contexts (R372, R379) -/

/-- STATE of a job (R379). -/
def Dev.jobState (d : Dev) (j : Nat) : Nat :=
  match d.ctx? j with
  | some x =>
    match x.st with
    | .running => 1
    | .blocked => 2
    | .becReady => 3
    | .becBlocked => 4
    | .held => 5
  | none =>
    if d.parts.any (fun p => p.list.any (·.id == j)) then 0
    else if d.parts.any (fun p => p.mustered.any (·.id == j)) then 6
    else 7

/-- A context command ends: RESULT, TAG, JOB and the job's STATE (R379). -/
def Dev.ctxEnds (d : Dev) (f job tag res : Nat) : Dev :=
  let st := d.jobState job
  d.modFn f fun x => { x with ctxSts := { x.ctxSts with busy := false, result := res, tag := tag, a := st, b := job } }

/-- The entry of a job that has not started. -/
def Dev.waiting? (d : Dev) (j : Nat) : Option JobEntry :=
  (d.parts.flatMap fun p => p.list ++ p.mustered).find? (·.id == j)

/-- PREEMPT (R364, R372, R376). -/
def Dev.preempt (d : Dev) (x : Ctx) (p : Part) (f tag : Nat) : Dev :=
  let j := x.entry.id
  let done := match lastEnd (d.runs x) with
    | some e => decide (x.mf.planned ≤ x.localCk e)
    | none => false
  if x.st != .running && x.st != .blocked || done then d.ctxEnds f j tag 4
  else
    match x.lane with
    | some _ =>
      (d.modCtx j fun y => { y with lane := some (.save .held), heldBy := some (y.heldBy.getD .preempt) }).ctxEnds f j tag 0
    | none =>
      match d.freeSlot p with
      | some s => (d.becalm x s .held (some .preempt)).ctxEnds f j tag 0
      | none => d.ctxEnds f j tag 3

/-- RESUME (R372). -/
def Dev.resume (d : Dev) (x : Ctx) (p : Part) (f tag : Nat) : Dev :=
  let j := x.entry.id
  if x.st != .held then d.ctxEnds f j tag 4
  else
    let n := d.nextReady
    let closed := (allAtGate (d.runs x)).isSome && !d.gateSat p x
    (d.modCtx j fun y => { y with st := if closed then .becBlocked else .becReady, heldBy := none, readySeq := n }).ctxEnds
      f j tag 0

/-- Every context and waiting job of `ids` is torn down with a cause (R369, R372, R373). -/
def Dev.killAll (d : Dev) (ids : List Nat) (cause : Nat) : Dev :=
  ids.foldl (fun d j =>
    match d.ctx? j with
    | some _ => (d.teardown j cause noIp 0).laneNext
    | none =>
      match d.waiting? j with
      | some e => d.endUnstarted e 0x13 cause 0 true
      | none => d) d

/-- A command on a context by its OP (R372). -/
def Dev.ctxRun (d : Dev) (f op job tag : Nat) : Dev :=
  if op = 0 ∨ 4 < op then d.ctxEnds f job tag 1
  else
    match d.part? (job / 2 ^ 29) with
    | none => d.ctxEnds f job tag 5
    | some p =>
      if p.owner != f then
        d.modFn f fun x => { x with ctxSts := { x.ctxSts with busy := false, result := 2, tag := tag, a := 7, b := job } }
      else
        match d.ctx? job, d.waiting? job with
        | none, none => d.ctxEnds f job tag 5
        | some x, _ =>
          match op with
          | 1 => d.preempt x p f tag
          | 2 => d.resume x p f tag
          | 3 => (d.killAll [job] 6).ctxEnds f job tag 0
          | _ => d.ctxEnds f job tag 0
        | none, some _ =>
          match op with
          | 3 => (d.killAll [job] 6).ctxEnds f job tag 0
          | 4 => d.ctxEnds f job tag 0
          | _ => d.ctxEnds f job tag 4

/-- DSP_CTX_CMD (R379). -/
def Dev.ctxOp (d : Dev) (f op job tag : Nat) : Dev := d.takeCmd f .ctx 50 fun d => d.ctxRun f op job tag

/-- PREEMPT (R372). -/
def execPreempt (fn job tag : Nat) (s : State) : Host.Outcome State Fault Refusal :=
  always s fun d => d.access fn .rest fun d => d.ctxOp fn 1 (job % 2 ^ 32) (tag % 256)

/-- RESUME (R372). -/
def execResume (fn job tag : Nat) (s : State) : Host.Outcome State Fault Refusal :=
  always s fun d => d.access fn .rest fun d => d.ctxOp fn 2 (job % 2 ^ 32) (tag % 256)

/-- CANCEL (R372). -/
def execCancel (fn job tag : Nat) (s : State) : Host.Outcome State Fault Refusal :=
  always s fun d => d.access fn .rest fun d => d.ctxOp fn 3 (job % 2 ^ 32) (tag % 256)

/-- QUERY (R372). -/
def execCtxQuery (fn job tag : Nat) (s : State) : Host.Outcome State Fault Refusal :=
  always s fun d => d.access fn .rest fun d => d.ctxOp fn 4 (job % 2 ^ 32) (tag % 256)

/-- A partition reset by the partition's owner (R373). -/
def Dev.partReset (d : Dev) (f part : Nat) : Dev :=
  match d.part? part with
  | none => d
  | some p =>
    if p.owner != f then d
    else
      let ids := (d.partCtxs part).map (·.entry.id) ++ p.list.map (·.id) ++ p.mustered.map (·.id)
      (d.killAll ids 7).clearWmk p.wmFirst (p.wmFirst + p.wmCount)

/-- PARTITION_RESET (R373). -/
def execPartitionReset (fn part : Nat) (s : State) : Host.Outcome State Fault Refusal :=
  always s fun d => d.access fn .rest fun d => d.partReset fn part

/-! ### Host access to waymarks (R283) -/

/-- The partition whose range holds a device waymark. -/
def Dev.wmPart (d : Dev) (w : Nat) : Option Part :=
  d.parts.find? fun p => p.defined && p.wmFirst ≤ w && w < p.wmFirst + p.wmCount

/-- A waymark lies in the private block of a job that has started, becalmed or not: the block stays in the waymark unit, and
the host never writes it (R278, R283, R517). -/
def Dev.wmPrivate (d : Dev) (w : Nat) : Bool :=
  d.ctxs.any fun x => x.wmBase ≤ w && w < x.wmBase + x.mf.wmCount

/-- A host write of a waymark's COUNT, where it is not ignored; gates that it satisfies free their contexts (R283, R359).
A VF sees its partition's waymarks only. -/
def Dev.wmHost (d : Dev) (f w : Nat) (g : Nat → Nat) : Dev :=
  let own := f == 0 || (d.wmPart w).any (·.owner == f)
  if !own || d.wmPrivate w then d
  else
    let m := d.wmkAt w
    let d := d.putWmk { m with count := g m.count % 2 ^ 32 }
    match d.wmPart w with
    | some p => d.wakeBlocked p.id
    | none => d

/-- WAYMARK_SIGNAL (R283). -/
def execWaymarkSignal (fn waymark add : Nat) (s : State) : Host.Outcome State Fault Refusal :=
  always s fun d => d.access fn .rest fun d => d.wmHost fn waymark fun c => c + add % 2 ^ 32

/-! ### Bus Master Enable and function-level reset, on the dispatcher's side (R374, R375) -/

/-- Every resident context of the function's partitions is becalmed and HELD; restores are abandoned (R374, R376). Where no
slot is free the context runs on (R364). -/
def Dev.stopCtxs (d : Dev) (f : Nat) : Dev :=
  (d.ctxs.filter fun x => (d.part? x.entry.part).any (·.owner == f)).foldl (fun d x =>
    let j := x.entry.id
    let note := fun (d : Dev) => d.modFn f fun y => { y with stopped := y.stopped.filter (· != j) ++ [j] }
    match x.lane with
    | some (.save _) =>
      if x.heldBy.isSome then d
      else note (d.modCtx j fun y => { y with lane := some (.save .held), heldBy := some .busMaster })
    | some (.restore _) =>
      note ((d.dropRestore x).modCtx j fun y => { y with st := .held, heldBy := some .busMaster })
    | none =>
      if x.st == .running || x.st == .blocked then
        match (d.part? x.entry.part).bind d.freeSlot with
        | some s => note (d.becalm x s .held (some .busMaster))
        | none => d
      else d) d

/-- A job among others in ascending order. -/
def insertJob (j : Nat) : List Nat → List Nat
  | [] => [j]
  | k :: ks => if j ≤ k then j :: k :: ks else k :: insertJob j ks

/-- Bus Master Enable is set again: a record for each context it becalmed, which becomes runnable, the lower JOB first;
those still saving follow when their save completes (R360, R374, R376). -/
def Dev.resumeCtxs (d : Dev) (f : Nat) : Dev :=
  ((d.fn f).stopped.foldr insertJob []).foldl (fun d j =>
    match d.ctx? j with
    | some x => if x.lane.isSome then d else d.unstop j
    | none => d.modFn f fun y => { y with stopped := y.stopped.filter (· != j) }) d

/-- The work of a function's partitions, and the jobs it has sent to others', go without records; JOB records it would have
written are counted (R375). -/
def Dev.dropWork (d : Dev) (f : Nat) : Dev :=
  let mine := fun (p : Nat) => (d.part? p).any (·.owner == f)
  let host := fun (e : JobEntry) => match e.src with
    | .host _ _ _ _ _ => true
    | _ => false
  let gone := (d.parts.filter fun p => p.defined && p.owner == f).flatMap (fun p => p.list ++ p.mustered) ++
    (d.ctxs.filter fun x => mine x.entry.part).map (·.entry)
  let sent := (d.parts.filter fun p => p.defined && p.owner != f).flatMap fun p => (p.list ++ p.mustered).filter (·.fn == f)
  let n := ((gone ++ sent).filter fun e => host e && e.fn == f).length
  let d : Dev := { d with parts := d.parts.map fun p =>
    { p with list := p.list.filter fun e => !sent.contains e, mustered := p.mustered.filter fun e => !sent.contains e } }
  let d := (d.ctxs.filter fun x => mine x.entry.part).foldl (fun d x =>
    let d := d.flushStores x
    let d := d.leaveCores x true
    d.leaveLane x.entry.id) d
  let d := gone.foldl (fun d e =>
    let d := e.inBufs.foldl (fun d b => d.freeBuf (inputDepot e.part) b) d
    e.outBufs.foldl (fun d b => d.freeBuf (outputDepot e.part) b) d) d
  let d : Dev := { d with ctxs := d.ctxs.filter fun x => !mine x.entry.part }
  let d := (d.parts.filter fun p => p.defined && p.owner == f).foldl (fun d p =>
    (d.modPart p.id fun q => { q with list := [], mustered := [] }).clearWmk p.wmFirst (p.wmFirst + p.wmCount)) d
  (d.modFn f fun x => { x with stopped := [], dspCnt := bump 4 n x.dspCnt }).laneNext

end Sys2Proof.Machine
end

