-- ==== Sys2Proof/Machine/Frames.lean ====
section
/-! DEFINITION. The reference pool: stream contexts, frame buffers and their samples, marks, and the lists of pictures
(R26, R63, R64, R74 to R77, R389). -/

namespace Sys2Proof.Machine

/-! ### Stream contexts (R64) -/

def Stream.codec (s : Stream) : Nat := at_ s.cfg 0 1
def Stream.maxRefs (s : Stream) : Nat := at_ s.cfg 1 1
def Stream.maxDepth (s : Stream) : Nat := at_ s.cfg 2 1
def Stream.skippable (s : Stream) : Bool := bitAt (at_ s.cfg 3 1) 0
def Stream.maxW (s : Stream) : Nat := at_ s.cfg 4 2
def Stream.maxH (s : Stream) : Nat := at_ s.cfg 6 2
def Stream.budget (s : Stream) : Nat := at_ s.cfg 8 4
def Stream.mult (s : Stream) : Nat := if at_ s.cfg 0xC 1 = 0 then 16 else at_ s.cfg 0xC 1
/-- The abandon limit in vk (R88). -/
def Stream.limit (s : Stream) : Nat := s.mult * s.budget
def Stream.ttlMs (s : Stream) : Nat := at_ s.cfg 0xE 2
def Stream.deadlineVk (s : Stream) : Nat := if at_ s.cfg 0x10 4 = 0 then 2 * s.budget else at_ s.cfg 0x10 4

/-- The used route slots with their routes. -/
def Stream.slots (s : Stream) : List (Nat × Nat) :=
  ((upTo 4).map fun i => (i, at_ s.cfg (0x18 + 2 * i) 2)).filter fun q => q.2 != 0xFFFF

/-- The route in a slot. -/
def Stream.routeAt (s : Stream) (slot : Nat) : Nat := at_ s.cfg (0x18 + 2 * slot) 2

/-! ### Frame buffers (R74) -/

/-- Bytes of a sample of a depth (R63). -/
def sampleBytes (depth : Nat) : Nat := if depth ≤ 8 then 1 else 2
/-- W' of R74. -/
def Stream.alignedW (s : Stream) : Nat := roundUp s.maxW 64
/-- Row pitch of both planes. -/
def Stream.pitch (s : Stream) : Nat := s.alignedW * sampleBytes s.maxDepth
def lumaOff : Nat := 16384
def Stream.chromaOff (s : Stream) : Nat := lumaOff + s.pitch * s.maxH
def Stream.motionOff (s : Stream) : Nat := s.chromaOff + s.pitch * s.maxH / 2
def Stream.motionBytes (s : Stream) : Nat := s.alignedW * s.maxH / 16
/-- Size of the stream's frame buffers. -/
def Stream.bufBytes (s : Stream) : Nat := roundUp (s.motionOff + s.motionBytes) 4096

/-- Mid-grey of a depth (R63). -/
def grey (depth : Nat) : Nat := if depth ≤ 8 then 128 else 512

/-- A sample value carried from one depth to another. -/
def reDepth (src dst v : Nat) : Nat :=
  if src = dst then v else if src ≤ 8 then v * 4 else v / 4

/-- Where a picture's samples are read from: its depot, buffer, and geometry. -/
structure PicSrc where
  dep : Depot
  ix : Nat
  pitch : Nat
  chroma : Nat
  depth : Nat
  w : Nat
  h : Nat
  deriving DecidableEq, Repr

/-- The sample source of a picture of a stream; none where it has no buffer. -/
def Dev.picSrc (d : Dev) (s : Stream) (p : Pic) : Option PicSrc :=
  match p.buf, d.depot? (videoDepot s.cls) with
  | some ix, some dep =>
    some { dep := dep, ix := ix, pitch := s.pitch, chroma := s.chromaOff, depth := p.depth, w := p.width, h := p.height }
  | _, _ => none

/-- Clamped to an index of a plane of `n`. -/
def clampIx (n : Nat) (i : Int) : Nat := (clampI 0 ((n : Int) - 1) i).toNat

/-- The luma sample at (x, y). -/
def Dev.lumaAt (d : Dev) (q : PicSrc) (x y : Nat) : Nat :=
  let b := sampleBytes q.depth
  ofLe (d.bufRead q.dep q.ix (lumaOff + y * q.pitch + x * b) b) % 1024

/-- The chroma sample `c` (0 Cb, 1 Cr) at (x, y) of the half-size plane. -/
def Dev.chromaAt (d : Dev) (q : PicSrc) (c x y : Nat) : Nat :=
  let b := sampleBytes q.depth
  ofLe (d.bufRead q.dep q.ix (q.chroma + y * q.pitch + (2 * x + c) * b) b) % 1024

/-- Rows of samples written from a byte offset of a frame buffer. -/
def Dev.putRows (d : Dev) (dep : Depot) (ix pitch depth : Nat) (rows : List (List Nat)) (off : Nat) : Dev :=
  (List.zip (upTo rows.length) rows).foldl (fun d r =>
    d.bufWrite dep ix (off + r.1 * pitch) (r.2.flatMap (le (sampleBytes depth)))) d

/-- Both planes of a decoded picture written to its buffer: `luma x y` and `chroma c x y` (R63). -/
def Dev.putPlanes (d : Dev) (s : Stream) (dep : Depot) (ix depth w h : Nat) (luma : Nat → Nat → Nat)
    (chroma : Nat → Nat → Nat → Nat) : Dev :=
  let d := d.putRows dep ix s.pitch depth ((upTo h).map fun y => (upTo w).map fun x => luma x y) lumaOff
  d.putRows dep ix s.pitch depth
    ((upTo ((h + 1) / 2)).map fun y => (upTo ((w + 1) / 2)).flatMap fun x => [chroma 0 x y, chroma 1 x y]) s.chromaOff

/-- A whole buffer filled with mid-grey, its motion store with zero motion (R88). -/
def Dev.fillGrey (d : Dev) (s : Stream) (dep : Depot) (ix depth : Nat) : Dev :=
  let n := s.pitch / sampleBytes depth
  let row := List.replicate n (grey depth)
  let d := d.putRows dep ix s.pitch depth (List.replicate (s.maxH + (s.maxH + 1) / 2) row) lumaOff
  d.bufWrite dep ix s.motionOff (zeros s.motionBytes)

/-- A whole buffer filled from another of the class, its motion store with zero motion (R88). -/
def Dev.fillCopy (d : Dev) (s : Stream) (dep : Depot) (src dst : Nat) : Dev :=
  let bs := d.bufRead dep src lumaOff (s.motionOff - lumaOff)
  (d.bufWrite dep dst lumaOff bs).bufWrite dep dst s.motionOff (zeros s.motionBytes)

/-! ### Frames and their marks (R77) -/

/-- The frame of a buffer. -/
def Video.frame? (v : Video) (cls ix : Nat) : Option Frame := v.frames.find? fun f => f.cls == cls && f.ix == ix

/-- The device with the frame of a buffer changed. -/
def Dev.modFrame (d : Dev) (cls ix : Nat) (g : Frame → Frame) : Dev :=
  d.modVideo fun v => { v with frames := modIf (fun f => f.cls == cls && f.ix == ix) g v.frames }

/-- No mark of R77 but a cache hold. -/
def Frame.idle (f : Frame) : Bool :=
  !f.refShort && !f.refLong && f.outputWait == 0 && !f.lastOutput && f.readers == 0

/-- A reference mark is set. -/
def Frame.isRef (f : Frame) : Bool := f.refShort || f.refLong

/-- The buffer is the target of a picture in decode or under the copier. -/
def Video.isTarget (v : Video) (f : Frame) : Bool :=
  v.streams.any fun s => s.cls == f.cls && s.pics.any fun p =>
    p.buf == some f.ix && (match p.phase with | .decoding _ _ => true | .copying => true | _ => false)

/-- A picture number lies among those a clip codes: from its first to its last (R103). -/
def Clip.wants (c : Clip) (n : Nat) : Bool :=
  c.ended.isNone && !seqNewer 32 c.startAt n && (match c.stopAt with | some e => !seqNewer 32 n e | none => true)

/-- A clip still has a picture before it: ready, or on its engine. -/
def Clip.holdsPic (c : Clip) (k : Nat) : Bool := c.queue.any (·.1 == k) || c.coding == some k

/-- A picture's entry is still needed: by its own course, its records, its mask list, its buffer or a clip. -/
def Dev.picLive (d : Dev) (s : Stream) (p : Pic) : Bool :=
  p.phase != .gone || !p.recordsDue.isEmpty || p.maskDue ||
  d.video.frames.any (fun f => f.stream == s.id && (f.serial == p.serial || p.buf == some f.ix)) ||
  d.video.clips.any (fun c => c.stream == s.id && c.holdsPic p.serial)

/-- Entries that nothing needs any more go; the taint source and the substitute a live entry names stay. -/
def Dev.prunePics (d : Dev) (n : Nat) : Dev :=
  match d.stream? n with
  | none => d
  | some s =>
    let live := s.pics.filter (d.picLive s)
    let named := fun (k : Nat) => live.any fun p => p.taint == some k || p.subst == some k
    let keep := fun (p : Pic) => live.any (·.serial == p.serial) || named p.serial || some p.serial == s.lastOut
    d.modStream n fun s => { s with pics := s.pics.filter keep }

/-- Buffers without a mark return to their depot (R77, R391). -/
def Dev.sweepFrames (d : Dev) : Dev :=
  let go := d.video.frames.filter fun f => f.idle && f.cacheUntil.isNone && !d.video.isTarget f
  let d := d.modVideo fun v => { v with frames := v.frames.filter fun f => !go.any (fun g => g.cls == f.cls && g.ix == f.ix) }
  go.foldl (fun d f => d.freeBuf (videoDepot f.cls) f.ix) d

/-- Buffers and picture entries after a change of a stream. -/
def Dev.tidy (d : Dev) (n : Nat) : Dev := d.sweepFrames.prunePics n

/-- A reader of a buffer begins or ends (R77). -/
def Dev.addReader (d : Dev) (cls ix : Nat) : Dev := d.modFrame cls ix fun f => { f with readers := f.readers + 1 }
def Dev.dropReader (d : Dev) (cls ix n : Nat) : Dev :=
  (d.modFrame cls ix fun f => { f with readers := f.readers - 1 }).tidy n

/-! ### Target buffers (R75, R76) -/

/-- The oldest frame of a class whose only mark is CACHE_HOLD. -/
def oldestHold : List Frame → Option Frame
  | [] => none
  | f :: fs =>
    match oldestHold fs with
    | none => if f.idle && f.cacheUntil.isSome then some f else none
    | some g => if f.idle && f.cacheUntil.isSome && f.age < g.age then some f else some g

/-- The frames of a class. -/
def Dev.classFrames (d : Dev) (cls : Nat) : List Frame := d.video.frames.filter (·.cls == cls)

/-- The pool can supply a target buffer (R71, R76). -/
def Dev.canTarget (d : Dev) (s : Stream) : Bool :=
  match d.depot? (videoDepot s.cls) with
  | some x => x.canAlloc s.id || (!x.rebuild && (oldestHold (d.classFrames s.cls)).isSome)
  | none => false

/-- A frame without a mark for a picture of a stream. -/
def mkFrame (s : Stream) (ix serial : Nat) (order : Int) : Frame :=
  { cls := s.cls, ix := ix, stream := s.id, serial := serial, order := order, refShort := false, refLong := false,
    outputWait := 0, lastOutput := false, readers := 0, cacheUntil := none, age := 0 }

/-- A target buffer: from the depot, or the buffer of the oldest cache hold of the class (R76). -/
def Dev.takeTarget (d : Dev) (s : Stream) (serial : Nat) (order : Int) : Option (Nat × Dev) :=
  match d.alloc (videoDepot s.cls) s.id with
  | some (ix, d) => some (ix, d.modVideo fun v => { v with frames := v.frames ++ [mkFrame s ix serial order] })
  | none =>
    match oldestHold (d.classFrames s.cls), d.depot? (videoDepot s.cls) with
    | some f, some x =>
      if x.rebuild then none
      else
        let rest := d.video.frames.filter fun g => !(g.cls == f.cls && g.ix == f.ix)
        let d := d.modVideo fun v => { v with frames := rest ++ [mkFrame s f.ix serial order] }
        let own := fun (h : Nat × Nat) => if h.1 == f.ix then (f.ix, s.id) else h
        let d := d.modDepot x.id fun y => { y with held := y.held.map own }
        let d := d.modFn s.fn fun y => { y with vdecCnt := bump 6 1 y.vdecCnt }
        some (f.ix, d.prunePics f.stream)
    | _, _ => none

/-! ### Status words (R64) -/

/-- The status half of an entry. -/
def Stream.statusWords (s : Stream) (isOpen : Bool) : List Byte :=
  le 4 s.nextPicture ++
  le 4 (b2n isOpen + 2 * b2n s.heavy + 4 * b2n s.refusing + 8 * b2n s.tainted) ++
  le 4 s.abandoned ++ le 4 s.concealed ++ le 4 s.overBudget ++ le 4 s.deadlineMiss ++ le 4 s.skipped ++ le 4 s.refused

/-- Offset of a stream's entry in its function's COMMON grant (R66, R92). -/
def Dev.streamEntry (d : Dev) (f n : Nat) : Nat :=
  (d.fn f).vdecBase + 128 * (n - ((d.funcCfg? f).map (·.streamFirst)).getD 0)

/-- The status words of a stream are brought up to date in its entry. -/
def Dev.putStatus (d : Dev) (n : Nat) : Dev :=
  match d.stream? n with
  | some s => d.commonWrite s.fn (d.streamEntry s.fn n + 0x20) (s.statusWords true)
  | none => d

/-- A picture of a stream. -/
def Stream.pic? (s : Stream) (k : Nat) : Option Pic := s.pics.find? (·.serial == k)
def Dev.pic? (d : Dev) (n k : Nat) : Option Pic := (d.stream? n).bind (·.pic? k)

/-- DECODE_VK of an engine: vk spent so far on its picture, or on its last one (R96). -/
def Dev.decodeSoFar (d : Dev) (e : VdecEngine) : Nat :=
  match e.job.bind fun j => d.pic? j.1 j.2 with
  | some p => match p.phase with
    | .decoding _ t => vkNow d - t
    | _ => e.decodeVk
  | none => e.decodeVk

/-- The picture's buffer still holds its samples: no later picture has taken it (R76, R77). -/
def Dev.holdsBuf (d : Dev) (s : Stream) (p : Pic) : Bool :=
  match p.buf with
  | some b => (d.video.frame? s.cls b).any fun f => f.stream == s.id && f.serial ≤ p.serial
  | none => false

/-- The device with a picture changed. -/
def Dev.modPic (d : Dev) (n k : Nat) (g : Pic → Pic) : Dev :=
  d.modStream n fun s => { s with pics := modIf (·.serial == k) g s.pics }

/-- The conditions of a picture with CONCEALED added where one of 0x21 to 0x25 is set (R81). -/
def withConcealed (codes : List Nat) : List Nat :=
  if codes.any (fun c => 0x21 ≤ c && c ≤ 0x25) && !codes.contains 1 then 1 :: codes else codes

end Sys2Proof.Machine
end

