-- ==== Sys2Proof/Machine/Vdec.lean ====
section
/-! DEFINITION. Video decode: streams, chunks, scheduling, the decode of a picture with its concealment and marks, the
copier, output order (R61 to R96, R26 to R28). -/

namespace Sys2Proof.Machine

/-! ### Commands on streams (R65 to R67, R93, R94) -/

/-- Stream `n` lies in the range of function `f` (R66). -/
def Dev.ownsStream (d : Dev) (f n : Nat) : Bool :=
  (d.funcCfg? f).any fun g => g.streamFirst ≤ n && n < g.streamFirst + g.streamCount

/-- Route `r` lies in the range of function `f` (R123). -/
def Dev.ownsRoute (d : Dev) (f r : Nat) : Bool :=
  (d.funcCfg? f).any fun g => g.routeFirst ≤ r && r < g.routeFirst + g.routeCount

/-- FLAGS of a bound route (R123). -/
def Route.buckets (r : Route) : Bool := bitAt (at_ r.desc 1 1) 0
def Route.redact (r : Route) : Bool := bitAt (at_ r.desc 1 1) 1
def Route.sequence (r : Route) : Bool := bitAt (at_ r.desc 1 1) 2

/-- A stream command ends (R94). -/
def Dev.streamEnds (d : Dev) (f n tag res : Nat) : Dev :=
  d.modFn f fun x => { x with streamSts := { x.streamSts with result := res, tag := tag, a := n } }

/-- Every field of a stream-context entry lies in its range and reserved bytes are 0 (R64, checks 3 to 5 of R65). -/
def streamCfgOk (e : List Byte) : Bool :=
  let g := fun o n => at_ e o n
  let mult := if g 0xC 1 = 0 then 16 else g 0xC 1
  g 0 1 ≤ 3 && g 1 1 ≤ 16 && (g 2 1 == 8 || (g 2 1 == 10 && g 0 1 != 0 && g 0 1 != 3)) && g 3 1 < 2 &&
  16 ≤ g 4 2 && g 4 2 ≤ 8192 && g 4 2 % 16 == 0 && 16 ≤ g 6 2 && g 6 2 ≤ 4352 && g 6 2 % 16 == 0 &&
  1024 ≤ g 8 4 && g 0xC 1 != 1 && g 0xD 1 == 0 && g 0x14 4 == 0 &&
  ((upTo 4).any fun i => g (0x18 + 2 * i) 2 != 0xFFFF) && (e.drop 0x40).all (· == 0) &&
  decide (mult * g 8 4 < 2 ^ 32) && (g 0x10 4 == 0 || decide (g 8 4 ≤ g 0x10 4))

/-- The stream as OPEN makes it from its entry. -/
def mkStream (f n : Nat) (e : List Byte) (serial : Nat) : Stream :=
  { id := n, fn := f, cfg := e.take 0x20, cls := 0, closing := false, heavy := false, refusing := false, tainted := false,
    nextPicture := 0, abandoned := 0, concealed := 0, overBudget := 0, deadlineMiss := 0, skipped := 0, refused := 0,
    nextSerial := serial, epoch := 0, bound := none, pics := [], flushTo := 0, lastOut := none,
    refSlots := List.replicate 8 none }

/-- The smaller VIDEO class that holds the buffer size (R389); ties go to the lower class. -/
def smallestClass (need : Nat) : List Depot → Option Depot
  | [] => none
  | x :: xs =>
    match smallestClass need xs with
    | none => if x.id < 8 && need ≤ x.bufKib * 1024 then some x else none
    | some y => if x.id < 8 && need ≤ x.bufKib * 1024 && x.bufKib ≤ y.bufKib then some x else some y

/-- A new reservation of `m` buffers can be kept beside the others (R387). -/
def Depot.canReserve (x : Depot) (m : Nat) : Bool :=
  decide (m + sum (x.res.map fun r => r.2 - x.holds r.1) ≤ x.freeCount)

/-- The first serial of a stream: above those of frames that an earlier OPEN left to readers. -/
def Dev.firstSerial (d : Dev) (n : Nat) : Nat :=
  (d.video.frames.filter (·.stream == n)).foldl (fun m f => max m (f.serial + 1)) 0

/-- OPEN (R65, R75, R284). No check of R65 looks for a route that two slots name, so such a stream opens (DESIGN
CHOICE, log 64). -/
def Dev.streamOpen (d : Dev) (f n tag : Nat) : Dev :=
  if !d.sealed then d.streamEnds f n tag 4
  else if !d.ownsStream f n then d.streamEnds f n tag 3
  else if (d.stream? n).isSome then d.streamEnds f n tag 4
  else
    let off := d.streamEntry f n
    let e := d.commonRead f off 128
    if !inSpan (d.commonGrant f).2 off 128 || !streamCfgOk e then d.streamEnds f n tag 1
    else
      let s := mkStream f n e (d.firstSerial n)
      let rs := s.slots.map (·.2)
      let redact := fun (r : Nat) => (d.route? r).any Route.redact
      if rs.any fun r => !d.ownsRoute f r then d.streamEnds f n tag 3
      else if rs.any fun r =>
          (match d.route? r with | none => true | some x => x.sequence) ||
          (redact r && d.video.streams.any fun o => o.slots.any fun q => q.2 == r) then d.streamEnds f n tag 4
      else
        match smallestClass s.bufBytes d.depots with
        | none => d.streamEnds f n tag 2
        | some x =>
          if !x.canReserve (s.maxRefs + 2) then d.streamEnds f n tag 2
          else
            let s := { s with cls := x.id }
            let d := d.reserve x.id n (s.maxRefs + 2)
            let d := d.modVideo fun v => { v with streams := v.streams ++ [s] }
            let new := s.slots.map fun q =>
              ({ fn := f, stream := n, slot := q.1, nextId := 1, reidFailed := false, tracks := [] } : TrackSet)
            let d : Dev := { d with trk := { d.trk with sets := d.trk.sets ++ new } }
            (d.putStatus n).streamEnds f n tag 0

/-- CLOSE (R67). -/
def Dev.streamClose (d : Dev) (f n tag : Nat) : Dev :=
  if !d.ownsStream f n then d.streamEnds f n tag 3
  else
    match d.stream? n with
    | none => d.streamEnds f n tag 4
    | some s =>
      if s.closing then d.streamEnds f n tag 4
      else (d.modStream n fun s => { s with closing := true }).streamEnds f n tag 0

/-- CLEAR_HEAVY (R89). -/
def Dev.clearHeavy (d : Dev) (f n tag : Nat) : Dev :=
  if !d.ownsStream f n then d.streamEnds f n tag 3
  else
    match d.stream? n with
    | none => d.streamEnds f n tag 4
    | some _ => ((d.modStream n fun s => { s with heavy := false }).putStatus n).streamEnds f n tag 0

/-- VDEC_STREAM_CMD by its OP (R93). -/
def Dev.streamOp (d : Dev) (f op n tag : Nat) : Dev :=
  d.takeCmd f .stream 50 fun d => match op with
  | 1 => d.streamOpen f n tag
  | 2 => d.streamClose f n tag
  | 3 => d.clearHeavy f n tag
  | _ => d.streamEnds f n tag 1

/-- A record of a stream's pictures, by its header (R297). -/
def recordOf (n : Nat) (bs : List Byte) : Bool := (at_ bs 4 1 == 1 || at_ bs 4 1 == 2) && at_ bs 0xE 2 == n

/-- A closing stream has nothing left: its pictures have gone forward, their records are written (R28), and no clip and no
re-identification step reads them. -/
def Dev.streamSpent (d : Dev) (s : Stream) : Bool :=
  s.pics.all (fun p => p.phase == .gone && p.recordsDue.isEmpty && !p.maskDue) &&
  d.video.clips.all (fun c => c.stream != s.id || (c.queue.isEmpty && c.coding.isNone)) &&
  !d.due.any (fun r => recordOf s.id r.bytes) && !(d.fn s.fn).overflow.any (fun r => recordOf s.id r.bytes) &&
  !d.trk.steps.any (·.stream == s.id)

/-- A track's sequence-state buffer is freed (R391). -/
def Dev.dropSeq (d : Dev) (k : Track) : Dev :=
  match k.seqBuf with
  | some b => d.freeBuf b.1 b.2
  | none => d

/-- The track sets of a stream go with their buffers; its zones lose observation, and CLEAR with it but at an FLR, which
keeps their values (R284, R305, R313, R391). -/
def Dev.dropSets (d : Dev) (keep : Bool) (n : Nat) : Dev :=
  let gone := d.trk.sets.filter (·.stream == n)
  let zones := ((d.charter.cur.map (·.zones)).getD []).filter (·.stream == n)
  let d := gone.foldl (fun d t => t.tracks.foldl (fun d k => d.dropSeq k) d) d
  let lose := fun (v : Verdict) => if zones.any (·.id == v.zone) then { v with lost := true, clear := keep && v.clear } else v
  let fresh := (zones.filter fun z => !d.trk.verdicts.any (·.zone == z.id)).map fun z =>
    ({ zone := z.id, count := 0, clear := false, lost := true, maxConf := 0, updated := none, seq := 0 } : Verdict)
  { d with trk := { d.trk with
      sets := d.trk.sets.filter (·.stream != n)
      verdicts := d.trk.verdicts.map lose ++ fresh } }

/-- The stream's buffers lose every mark but their readers; its reservation is released (R67, R91). -/
def Dev.releaseStream (d : Dev) (s : Stream) : Dev :=
  let d := d.modVideo fun v => { v with
    frames := modIf (·.stream == s.id) (fun f => { f with
      refShort := false, refLong := false, outputWait := 0, lastOutput := false, cacheUntil := none }) v.frames
    streams := v.streams.filter (·.id != s.id) }
  let d := d.sweepFrames
  d.modDepot (videoDepot s.cls) fun x => { x with res := x.res.filter (·.1 != s.id) }

/-- CLOSE ends, with the stream's clips ended before (R67). -/
def Dev.streamClosed (d : Dev) (s : Stream) : Dev :=
  let off := d.streamEntry s.fn s.id
  let d := (d.dropSets false s.id).releaseStream s
  d.commonWrite s.fn (off + 0x20) (s.statusWords false)

/-! ### Pictures (R68 to R72, R79, R86) -/

/-- A chunk accepted at fetch becomes a picture in decode order; a chunk without bytes is whole at once (R69). -/
def mkPic (s : Stream) (now : Nat) (begun : Bool) (b : List Byte) : Pic :=
  let flags := at_ b 2 2
  let bytes := at_ b 4 4
  { serial := s.nextSerial, flags := flags, bytes := bytes, addr := at_ b 8 8, timestamp := at_ b 0x10 8,
    overrides := (b.drop 0x20).take 32, begun := begun, cut := none, fetchedVk := if bytes = 0 then now else 0, facts := none,
    phase := if bytes = 0 then .fetched else .fetching, shown := !(bytes == 0 && bitAt flags 1), number := none,
    buf := none, noDecode := false, conditions := [], overBudget := false, byteOffset := 0, cuAddr := 0, decodeVk := 0,
    taint := none, subst := none, coverage := 0, concealKind := 0, engine := 0, reference := false, heavy := false,
    width := 0, height := 0, depth := s.maxDepth, epoch := 0, order := 0, latency := 0, report := [], recordsDue := [],
    maskDue := false, maskFull := false, maskOverflow := false, masks := [] }

/-- Headwind-2 holds the chunks of a stream: that of its class, or of the INPUT or OUTPUT depot of a partition one of its
routes targets (R393). -/
def Dev.chunkHeld (d : Dev) (s : Stream) : Bool :=
  d.hw2 (videoDepot s.cls) || s.slots.any fun q =>
    let p := at_ (d.routeDesc q.2) 0 1
    d.hw2 (inputDepot p) || d.hw2 (outputDepot p)

/-- The fetch of a stream's chunk may begin (R91, R374, R393, R468). -/
def Dev.mayFetch (d : Dev) (s : Stream) : Bool :=
  d.lwd.st == .active && d.mayRequest s.fn && !d.hw2 (overflowDepot s.fn) && !d.chunkHeld s

/-- The chunk of a descriptor joins its stream. -/
def Dev.addChunk (d : Dev) (n queue : Nat) (b : List Byte) : Dev :=
  let now := vkNow d
  let begun := (d.stream? n).any d.mayFetch
  d.modStream n fun s => { s with
    pics := s.pics ++ [mkPic s now begun b], nextSerial := s.nextSerial + 1, bound := some (s.bound.getD queue) }

/-- The picture carries parsed headers. -/
def Pic.parsed (p : Pic) : Bool := p.facts.any (·.parses)

/-- The picture has finished decode (R71). -/
def Pic.done (p : Pic) : Bool := match p.phase with | .decoded => true | .gone => true | _ => false

/-- Every earlier picture of the stream has finished (R71). -/
def Stream.turnOf (s : Stream) (p : Pic) : Bool :=
  s.pics.all fun q => if q.serial < p.serial then q.done else match q.phase with
    | .ready => false
    | .decoding _ _ => false
    | .copying => false
    | _ => true

/-- Pictures that await their output. -/
def Stream.waiting (s : Stream) : List Pic := s.pics.filter fun p => p.shown && p.phase == .decoded

/-- The depth and chroma of a frame are among those R61 lists for its codec. -/
def codecAllows (codec : Nat) (f : UnitFacts) : Bool :=
  match codec with
  | 0 => f.depth == 8 && f.format == 1
  | 1 => (f.depth == 8 || f.depth == 10) && f.format == 1
  | 2 => (f.depth == 8 || f.depth == 10) && f.format ≤ 1
  | _ => f.depth == 8 && f.format ≤ 3

/-- The picture uses a tool outside R61 (R62). -/
def Stream.beyond (s : Stream) (f : UnitFacts) : Bool := f.parses && (f.unsupported || !codecAllows s.codec f)

/-- The picture decodes without prediction: IRAP picture, AV1 key frame or JPEG image (R84). -/
def Stream.clean (s : Stream) (f : UnitFacts) : Bool := s.codec == 3 || f.clean

/-- A non-reference picture of its codec (R79). -/
def Stream.nonRef (s : Stream) (p : Pic) : Bool :=
  s.codec == 3 || p.facts.any fun f =>
    f.parses && !f.showExisting && if s.codec = 2 then !f.hidden && f.refresh == 0 else f.nonRef

/-- The skip decision (R79). -/
def Dev.skips (d : Dev) (s : Stream) (p : Pic) : Bool :=
  s.skippable && s.nonRef p &&
  s.slots.all fun q => d.hw1 (inputDepot (at_ (d.routeDesc q.2) 0 1))

/-- MaxDpbMbs of an H.264 level_idc, in the standard's Table A-1 (PRESUMED, log 57). -/
def levelMbs (level : Nat) : Nat :=
  if level ≤ 10 then 396 else if level ≤ 11 then 900 else if level ≤ 20 then 2376 else if level ≤ 21 then 4752
  else if level ≤ 30 then 8100 else if level ≤ 31 then 18000 else if level ≤ 32 then 20480 else if level ≤ 41 then 32768
  else if level ≤ 42 then 34816 else if level ≤ 50 then 110400 else if level ≤ 52 then 184320 else 696320

/-- Frames that an H.264 level's decoded picture buffer holds at the picture's size, at most 16 (R86). -/
def levelFrames (f : UnitFacts) : Nat := min 16 (levelMbs f.level / (ceilDiv f.width 16 * ceilDiv f.height 16))

/-- The DPB requirement of R86. -/
def dpbOf (codec : Nat) (f : UnitFacts) : Nat :=
  if codec = 1 then f.refLimit + 1 else f.maxDec.getD (if f.baseline then f.refLimit else levelFrames f)

/-- Pictures that may wait for their output (R78). -/
def reorderOf (codec : Nat) (f : UnitFacts) : Nat := f.reorder.getD (if f.baseline then 0 else dpbOf codec f)

/-- The reference slots once a frame's refresh_frame_flags have put frame `k` into some of them (R77). -/
def refreshed (flags : Nat) (k : Option Nat) (slots : List (Option Nat)) : List (Option Nat) :=
  (List.zip (upTo slots.length) slots).map fun q => if bitAt flags q.1 then k else q.2

/-- AV1 frames that the eight slots hold once frame `k` has its place (R86). -/
def Stream.heldAfter (s : Stream) (k : Nat) (f : UnitFacts) : Nat :=
  ((refreshed f.refresh (some k) s.refSlots).filterMap fun x => x).eraseDups.length

/-- The parameter set a picture uses passes R86. -/
def dimsOk (s : Stream) (k : Nat) (f : UnitFacts) : Bool :=
  decide (f.width ≤ s.maxW) && decide (f.height ≤ s.maxH) && decide (f.depth ≤ s.maxDepth) &&
  match s.codec with
  | 2 => decide (s.heldAfter k f ≤ s.maxRefs)
  | 3 => true
  | c => decide (dpbOf c f ≤ s.maxRefs)

/-- A lost picture: a chunk of no bytes without END_OF_STREAM (R69). -/
def Pic.lost (p : Pic) : Bool := p.bytes == 0 && !bitAt p.flags 1

/-- END_OF_STREAM without a picture (R69). -/
def Pic.endOnly (p : Pic) : Bool := p.bytes == 0 && bitAt p.flags 1

/-- DISCONTINUITY (R69): the reference marks of the stream go. -/
def Dev.discontinuity (d : Dev) (s : Stream) (p : Pic) : Dev :=
  if bitAt p.flags 0 then
    let d := d.modVideo fun v => { v with
      frames := modIf (·.stream == s.id) (fun f => { f with refShort := false, refLong := false }) v.frames }
    (d.modStream s.id fun s => { s with epoch := s.epoch + 1, refSlots := List.replicate 8 none }).tidy s.id
  else d

/-- The output-order key of a picture: H.264 and HEVC count by their POC from each picture that needs no reference, the
others by decode order (R78). A picture that states no place comes after those before it. -/
def Stream.orderOf (s : Stream) (p : Pic) : Nat × Int :=
  if 2 ≤ s.codec then (0, p.serial)
  else
    match p.facts with
    | some f =>
      if f.parses then (if s.clean f then s.epoch + 1 else s.epoch, f.order)
      else (s.epoch, (s.pics.filter fun q => q.serial < p.serial && q.epoch == s.epoch).foldl (fun m q => max m q.order) 0)
    | none => (s.epoch, (s.pics.filter fun q => q.serial < p.serial && q.epoch == s.epoch).foldl (fun m q => max m q.order) 0)

/-- A picture takes its place in the output order. -/
def Dev.place (d : Dev) (s : Stream) (p : Pic) : Dev :=
  let k := s.orderOf p
  (d.modPic s.id p.serial fun q => { q with epoch := k.1, order := k.2 }).modStream s.id fun s => { s with epoch := k.1 }

/-- Two places in output order: the first comes before the second. -/
def earlierKey (a b : Nat × Int) : Bool := decide (a.1 < b.1) || (a.1 == b.1 && decide (a.2 < b.2))

/-- HEVC pictures that wait and follow a picture in output order have waited for one more (R78). -/
def Stream.waited (s : Stream) (p : Pic) : Stream :=
  if s.codec = 1 && p.shown then
    { s with pics := s.pics.map fun q =>
        if q.shown && q.phase == .decoded && earlierKey (p.epoch, p.order) (q.epoch, q.order) then
          { q with latency := q.latency + 1 } else q }
  else s

/-- A picture that is not decoded is finished: skipped or refused (R79, R86). -/
def Dev.finishBare (d : Dev) (n k code : Nat) : Dev :=
  d.modPic n k fun p => { p with phase := .decoded, noDecode := true, conditions := [code] }

/-- Held references of a stream (R77, R85). -/
def Dev.heldRefs (d : Dev) (n : Nat) : List Frame := d.video.frames.filter fun f => f.stream == n && f.isRef

/-- The distance of two places in picture order. -/
def gapOf (a b : Int) : Nat := (a - b).natAbs

/-- The held reference nearest in picture order, of two the earlier (R85). -/
def nearestRef (o : Int) : List Frame → Option Frame
  | [] => none
  | f :: fs =>
    match nearestRef o fs with
    | none => some f
    | some g =>
      if gapOf f.order o < gapOf g.order o ∨ (gapOf f.order o = gapOf g.order o ∧ f.order ≤ g.order) then some f else some g

/-- The end of a stream on this picture lets those up to it go forward (R69). -/
def Dev.endOfStream (d : Dev) (n : Nat) (p : Pic) : Dev :=
  if bitAt p.flags 1 then
    d.modStream n fun s => { s with flushTo := max s.flushTo (p.serial + 1), epoch := s.epoch + 1 }
  else d

/-- A picture completes: it awaits its output, and counts if it passed its deadline (R72, R77). -/
def Dev.finishPic (d : Dev) (n k : Nat) : Dev :=
  match d.stream? n, d.pic? n k with
  | some s, some p =>
    let late := decide (p.fetchedVk + s.deadlineVk < vkNow d) && (!p.noDecode || p.lost)
    let ref := match p.buf with
      | some b => (d.video.frame? s.cls b).any fun f => f.serial == k && f.isRef
      | none => false
    let d := (d.modStream n fun s => s.waited p).modPic n k fun p => { p with
      phase := if p.shown then .decoded else .gone, reference := ref, heavy := s.heavy
      conditions := withConcealed (if p.taint.isSome then p.conditions ++ [1] else p.conditions).eraseDups }
    let d := match p.buf with
      | some b => if p.shown then d.modFrame s.cls b fun f => { f with outputWait := f.outputWait + 1 } else d
      | none => d
    let d := if late then
        (d.modStream n fun s => { s with deadlineMiss := satAdd 32 s.deadlineMiss 1 }).modFn s.fn fun x =>
          { x with vdecCnt := bump 5 1 x.vdecCnt }
      else d
    ((d.endOfStream n p).tidy n).putStatus n
  | _, _ => d

/-- The taint a picture takes: the earliest source among the pictures it read, else itself where it is concealed (R84). -/
def Stream.taintOf (s : Stream) (read : List Nat) (self : Option Nat) : Option Nat :=
  let l := read.filterMap fun k => (s.pic? k).bind (·.taint)
  match l with
  | [] => self
  | a :: as => some (as.foldl min a)

/-! ### The copier (R62, R69, R88) -/

/-- The copy of the first picture in the copier's order begins: its buffer takes the stream's last output picture, or
mid-grey. -/
def Dev.startCopy (d : Dev) : Dev :=
  match d.video.copier with
  | [] => d
  | (n, k) :: _ =>
    let d := d.modVideo fun v => { v with copierTick := d.run }
    match d.stream? n, d.pic? n k, (d.stream? n).bind fun s => d.depot? (videoDepot s.cls) with
    | some s, some p, some dep =>
      match p.buf, (s.lastOut.bind s.pic?).bind fun q => q.buf.map fun b => (q, b) with
      | some b, some (q, src) =>
        (d.fillCopy s dep src b).modPic n k fun p => { p with
          concealKind := 1, depth := q.depth
          width := if p.parsed then p.width else q.width, height := if p.parsed then p.height else q.height }
      | some b, none =>
        (d.fillGrey s dep b s.maxDepth).modPic n k fun p => { p with
          concealKind := 3, depth := s.maxDepth
          width := if p.parsed then p.width else s.maxW, height := if p.parsed then p.height else s.maxH }
      | none, _ => d
    | _, _, _ => d

/-- A picture joins the copier's order (R90). -/
def Dev.joinCopier (d : Dev) (n k : Nat) : Dev :=
  let d := d.modPic n k fun p => { p with phase := .copying }
  let idle := d.video.copier.isEmpty
  let d := d.modVideo fun v => { v with copier := v.copier ++ [(n, k)] }
  if idle then d.startCopy else d

/-- Bytes the copier moves for a picture of a stream (R88). -/
def Stream.copyBytes (s : Stream) : Nat := s.motionOff - lumaOff

/-- CONCEAL_COPY_DONE is due: 64 B have passed in each vk (R88). -/
def dueCopyDone (d : Dev) : Bool :=
  match d.video.copier with
  | [] => false
  | (n, _) :: _ =>
    d.mainUp && d.clk.refPresent &&
    match d.stream? n with
    | some s => decide (d.video.copierTick + ceilDiv s.copyBytes 64 * vkTicks ≤ d.run)
    | none => true

/-- The copy ends: the picture is complete, and the next copy begins. -/
def Dev.copyDone (d : Dev) : Dev :=
  match d.video.copier with
  | [] => d
  | (n, k) :: rest =>
    let d := d.finishPic n k
    (d.modVideo fun v => { v with copier := rest }).startCopy

/-! ### Marks (R77) -/

/-- The marking process of a picture of H.264 or HEVC: what its headers leave marked, and its own mark. -/
def Dev.mark (d : Dev) (s : Stream) (k : Nat) (f : UnitFacts) : Dev :=
  let g := fun (x : Frame) =>
    if x.stream != s.id then x
    else if x.serial = k then { x with refShort := f.self == 1, refLong := f.self == 2 }
    else
      { x with refLong := x.isRef && f.keepLong.contains x.order
               refShort := x.isRef && f.keepShort.contains x.order && !f.keepLong.contains x.order }
  d.modVideo fun v => { v with frames := v.frames.map g }

/-- AV1's reference update: refresh_frame_flags put a frame into slots, and a frame is a reference while some slot holds it
(R77). -/
def Dev.refreshRefs (d : Dev) (s : Stream) (k : Nat) (f : UnitFacts) : Dev :=
  let slots := refreshed f.refresh (some k) s.refSlots
  (d.modStream s.id fun s => { s with refSlots := slots }).modVideo fun v => { v with
    frames := modIf (·.stream == s.id) (fun x => { x with refShort := slots.contains (some x.serial) }) v.frames }

/-- The frame earliest in decode order. -/
def earliestFrame : List Frame → Option Frame
  | [] => none
  | f :: fs =>
    match earliestFrame fs with
    | none => some f
    | some g => if f.serial < g.serial then some f else some g

/-- Marks are cleared until the limit holds: short-term references first, each earliest in decode order (R77). -/
def Dev.limitRefs (n lim : Nat) : Nat → Dev → Dev
  | 0, d => d
  | m + 1, d =>
    let l := d.heldRefs n
    if l.length ≤ lim then d
    else
      match earliestFrame (l.filter (·.refShort)) with
      | some f => limitRefs n lim m (d.modFrame f.cls f.ix fun f => { f with refShort := false })
      | none =>
        match earliestFrame l with
        | some f => limitRefs n lim m (d.modFrame f.cls f.ix fun f => { f with refLong := false })
        | none => d

/-- The marking process of a codec, with the limit of H.264 and HEVC; a JPEG image has none (R77). -/
def Dev.marking (d : Dev) (s : Stream) (k : Nat) (f : UnitFacts) : Dev :=
  match s.codec with
  | 2 => d.refreshRefs s k f
  | 3 => d
  | _ =>
    let d := d.mark s k f
    Dev.limitRefs s.id (min f.refLimit s.maxRefs) (d.heldRefs s.id).length d

/-- A reference as a picture names it: by its slot in AV1, else by its place in picture order (R85). -/
def Dev.refFrame (d : Dev) (s : Stream) (r : Int) : Option Frame :=
  let held := d.heldRefs s.id
  if s.codec = 2 then ((s.refSlots[r.toNat]?).bind fun x => x).bind fun k => held.find? (·.serial == k)
  else held.find? (·.order == r)

/-- A reference a picture at place `o` needs: the held one, or its substitute, and whether it was missing (R85). An unfilled
slot has no place of its own: its substitute is the one nearest to the picture. -/
def Dev.resolveRef (d : Dev) (s : Stream) (o r : Int) : Option Frame × Bool :=
  match d.refFrame s r with
  | some f => (some f, false)
  | none => (nearestRef (if s.codec = 2 then o else r) (d.heldRefs s.id), true)


/-! ### Becoming ready -/

/-- An AV1 frame header that shows an existing frame (R69): the frame of the slot it names, or the substitute of R85, or
mid-grey. Shown key frames refresh slots again (R77). -/
def Dev.showExisting (d : Dev) (s : Stream) (p : Pic) (f : UnitFacts) : Option Dev :=
  let k := p.serial
  let show_ := fun (fr : Frame) (codes : List Nat) (subst : Option Nat) =>
    let src := s.pic? fr.serial
    let self := if codes.isEmpty then none else some k
    let d := d.refreshRefs s fr.serial f
    (d.modPic s.id k fun p => { p with
      noDecode := true, buf := some fr.ix, conditions := codes, subst := subst, taint := s.taintOf [fr.serial] self
      width := (src.map (·.width)).getD 0, height := (src.map (·.height)).getD 0
      depth := (src.map (·.depth)).getD s.maxDepth, coverage := (src.map (·.coverage)).getD 0 }).finishPic s.id k
  match d.resolveRef s f.order ((f.refs.head?).getD 8) with
  | (some fr, missing) => some (show_ fr (if missing then [0x22] else []) (if missing then some fr.serial else none))
  | (none, _) =>
      match d.takeTarget s k f.order, d.depot? (videoDepot s.cls) with
      | some (ix, d), some dep =>
        some ((((d.fillGrey s dep ix s.maxDepth).refreshRefs s k f).modPic s.id k fun p => { p with
          noDecode := true, buf := some ix, conditions := [0x22], taint := some k, concealKind := 3
          width := if f.width = 0 then s.maxW else f.width, height := if f.height = 0 then s.maxH else f.height
          depth := s.maxDepth }).finishPic s.id k)
      | _, _ => none

/-- A lost picture takes a buffer for the copier (R69). -/
def Dev.lostPic (d : Dev) (s : Stream) (p : Pic) : Option Dev :=
  match d.takeTarget s p.serial p.order with
  | some (ix, d) =>
    some ((d.modPic s.id p.serial fun p => { p with
      noDecode := true, buf := some ix, conditions := [0x24], taint := some p.serial }).joinCopier s.id p.serial)
  | none => none

/-- A picture whose parameter set fails R86 is refused: it takes no buffer and no engine time. The AV1 slots it would fill
hold no frame for a later picture, which meets a missing reference there (R85, R86). -/
def Dev.refusePic (d : Dev) (n k : Nat) : Dev :=
  let flags := (((d.pic? n k).bind (·.facts)).map (·.refresh)).getD 0
  let d := d.modStream n fun s => { s with
    refused := satAdd 32 s.refused 1, refusing := true
    refSlots := if s.codec = 2 then refreshed flags none s.refSlots else s.refSlots }
  (d.finishBare n k 0x20).finishPic n k

/-- What becomes of a picture whose turn has come; none where no target buffer can be had (R71). -/
def Dev.turnPic (d : Dev) (s : Stream) (p : Pic) : Option Dev :=
  let k := p.serial
  let d := d.discontinuity s p
  let s := (d.stream? s.id).getD s
  if p.endOnly then
    some (((d.modPic s.id k fun p => { p with phase := .gone }).endOfStream s.id p).tidy s.id)
  else
    let d := d.place s p
    match d.stream? s.id, d.pic? s.id k with
    | some s, some p =>
      match p.facts with
      | none => d.lostPic s p
      | some f =>
        if f.parses && f.showExisting then d.showExisting s p f
        else if d.skips s p then
          let d := d.modStream s.id fun s => { s with skipped := satAdd 32 s.skipped 1 }
          some ((d.finishBare s.id k 0x05).finishPic s.id k)
        else if d.canTarget s then
          let d := d.modPic s.id k fun p => { p with
            phase := .ready, width := f.width, height := f.height, depth := if f.parses then f.depth else s.maxDepth }
          some (d.putStatus s.id)
        else none
    | _, _ => none

/-- PICTURE_READY is due (R71). -/
def duePicReady (n k : Nat) (d : Dev) : Bool :=
  match d.stream? n, d.pic? n k with
  | some s, some p =>
    d.mainUp && p.phase == .fetched && s.turnOf p && (!bitAt p.flags 0 || s.waiting.all fun q => p.serial < q.serial) &&
    (d.turnPic s p).isSome
  | _, _ => false

/-! ### Engines (R72, R88) -/

/-- The ready pictures with a buffer at hand: stream, serial, deadline. -/
def Dev.readySet (d : Dev) : List (Nat × Nat × Nat) :=
  d.video.streams.flatMap fun s => if !d.canTarget s then [] else
    (s.pics.filter fun p => p.phase == .ready).map fun p => (s.id, p.serial, p.fetchedVk + s.deadlineVk)

/-- The earliest deadline; ties go to the lower stream (R72). -/
def earliest : List (Nat × Nat × Nat) → Option (Nat × Nat × Nat)
  | [] => none
  | x :: xs =>
    match earliest xs with
    | none => some x
    | some y => if x.2.2 < y.2.2 ∨ (x.2.2 = y.2.2 ∧ x.1 ≤ y.1) then some x else some y

/-- The lowest-numbered idle engine. -/
def Video.idleEngine (v : Video) : Option Nat := v.vdec.findIdx? fun e => e.job.isNone

/-- DECODE_START is due: the engine is the lowest free one, and a picture is ready (R72, R475). -/
def dueDecodeStart (e : Nat) (d : Dev) : Bool :=
  d.mainUp && d.clk.refPresent && !d.clk.vssStopped && d.video.idleEngine == some e && (earliest d.readySet).isSome

/-- A parameter set that passes R86 is activated. -/
def Dev.activate (d : Dev) (n : Nat) (p : Pic) : Dev :=
  if p.parsed then (d.modStream n fun s => { s with refusing := false }).putStatus n else d

/-- The engine takes the picture with the earliest deadline; its parameter set is checked (R86) and its target buffer taken
(R72, R75, R76). -/
def Dev.decodeStart (d : Dev) (e : Nat) : Dev :=
  match earliest d.readySet with
  | none => d
  | some (n, k, _) =>
    match d.stream? n, d.pic? n k with
    | some s, some p =>
      if p.facts.any fun f => f.parses && !dimsOk s k f then d.refusePic n k
      else
      match (d.activate n p).takeTarget s k p.order with
      | some (ix, d) =>
        let now := vkNow d
        let d := d.modPic n k fun p => { p with phase := .decoding e now, buf := some ix, engine := e }
        d.modVideo fun v => { v with
          vdec := modAt (fun x => { x with job := some (n, k), lastStream := n }) e v.vdec }
      | none => d
    | _, _ => d

/-- The picture in decode on an engine, with its stream and its first vk. -/
def Dev.inDecode (d : Dev) (e : Nat) : Option (Stream × Pic × Nat) :=
  match (d.video.vdec[e]?).bind (·.job) with
  | some (n, k) =>
    match d.stream? n, d.pic? n k with
    | some s, some p =>
      match p.phase with
      | .decoding _ t => some (s, p, t)
      | _ => none
    | _, _ => none
  | none => none

/-- BUDGET_PASSED is due (R88). -/
def dueBudget (e : Nat) (d : Dev) : Bool :=
  match d.inDecode e with
  | some (s, p, t) => d.mainUp && !p.overBudget && decide (t + s.budget ≤ vkNow d)
  | none => false

/-- The picture counts in OVER_BUDGET (R88). -/
def Dev.budgetPassed (d : Dev) (e : Nat) : Dev :=
  match d.inDecode e with
  | some (s, p, _) =>
    ((d.modPic s.id p.serial fun p => { p with overBudget := true }).modStream s.id fun s =>
      { s with overBudget := satAdd 32 s.overBudget 1 }).putStatus s.id
  | none => d

/-- An engine is released after `vk` on its picture (R92, R96). -/
def Dev.freeEngine (d : Dev) (e vk : Nat) : Dev :=
  d.modVideo fun v => { v with
    vdec := modAt (fun x => { x with job := none, decodeVk := vk, busyVk := satAdd 64 x.busyVk vk }) e v.vdec }

/-! ### References and concealment (R83 to R85) -/


/-- SUBST_PICTURE's picture: the substitute of the first missing reference. -/
def substOf (l : List (Option Frame × Bool)) : Option Nat :=
  match l.find? (·.2) with
  | some (some f, _) => some f.serial
  | _ => none

/-- The held reference latest in decode order. -/
def latestFrame : List Frame → Option Frame
  | [] => none
  | f :: fs =>
    match latestFrame fs with
    | none => some f
    | some g => if f.serial < g.serial then some g else some f

/-- The picture is concealed as an intra picture or JPEG image (R83). -/
def Dev.asIntra (d : Dev) (s : Stream) (p : Pic) : Bool :=
  s.codec == 3 || match p.facts with
  | some f => if f.parses then f.picType == 0 else (d.heldRefs s.id).isEmpty
  | none => true

/-- What a picture reads: the frames of its references in order, each with whether it was missing; without headers, the
reference that conceals it (R83, R84). -/
def Dev.readsOf (d : Dev) (s : Stream) (p : Pic) : List (Option Frame × Bool) :=
  match p.facts with
  | some f =>
    if f.parses then if s.clean f then [] else f.refs.map (d.resolveRef s f.order)
    else if d.asIntra s p then [] else [(latestFrame (d.heldRefs s.id), false)]
  | none => []

/-- The picture whose samples fill the concealed units, with the kind of concealment; none for mid-grey (R83). -/
def Dev.concealFrom (d : Dev) (s : Stream) (p : Pic) : Option Pic × Nat :=
  if d.asIntra s p then
    match s.lastOut.bind s.pic? with
    | some q => if q.buf.isSome then (some q, 1) else (none, 3)
    | none => (none, 3)
  else
    match (((d.readsOf s p).head?).bind (·.1)).bind fun f => s.pic? f.serial with
    | some q => (some q, 2)
    | none => (none, 3)

/-- The unit of a picture that holds luma sample (x, y), in raster order (R80). -/
def unitOf (f : UnitFacts) (x y : Nat) : Nat := y / 2 ^ f.unitH * ceilDiv f.width (2 ^ f.unitW) + x / 2 ^ f.unitW

/-- Size of the coded chroma planes (R63). -/
def chromaW (f : UnitFacts) : Nat := if f.format = 3 then f.width else (f.width + 1) / 2
def chromaH (f : UnitFacts) : Nat := if 2 ≤ f.format then f.height else (f.height + 1) / 2

/-- A chroma sample in 4:2:0 form from a picture's native chroma: 4:4:4 averaged in pairs across, then 4:2:2 and 4:4:4
averaged in pairs down; mid-grey for a picture without chroma (R63). -/
def chroma420 (f : UnitFacts) (g : DecodeFacts) (c x y : Nat) : Nat :=
  let nw := chromaW f
  let nh := chromaH f
  let at2 := fun (i j : Nat) => (g.chroma[2 * (min j (nh - 1) * nw + min i (nw - 1)) + c]?).getD 0
  let across := fun (i j : Nat) => if f.format = 3 then (at2 (2 * i) j + at2 (2 * i + 1) j + 1) / 2 else at2 i j
  if f.format = 0 then grey f.depth
  else if 2 ≤ f.format then (across x (2 * y) + across x (2 * y + 1) + 1) / 2
  else across x y

/-- The picture's samples with the units of `bad` taken from elsewhere (R83), and the rest of its buffer (R74). -/
def Dev.putPicture (d : Dev) (s : Stream) (dep : Depot) (ix depth : Nat) (f : UnitFacts) (g : DecodeFacts) (bad : List Nat)
    (src : Option PicSrc) : Dev :=
  let fill := fun (rd : PicSrc → Nat) => match src with
    | some q => reDepth q.depth depth (rd q)
    | none => grey depth
  let luma := fun x y =>
    if bad.contains (unitOf f x y) then fill fun q => d.lumaAt q (clampIx q.w x) (clampIx q.h y)
    else (g.luma[y * f.width + x]?).getD 0
  let chroma := fun c x y =>
    if bad.contains (unitOf f (2 * x) (2 * y)) then
      fill fun q => d.chromaAt q c (clampIx ((q.w + 1) / 2) x) (clampIx ((q.h + 1) / 2) y)
    else chroma420 f g c x y
  ((d.putPlanes s dep ix depth f.width f.height luma chroma).bufWrite dep ix 16 g.header).bufWrite dep ix s.motionOff g.motion

/-- The codes an engine's findings add: corrupt data, missing coverage, a missing reference (R82, R85, R87). -/
def findings (f : UnitFacts) (g : DecodeFacts) (missing : Bool) : List Nat :=
  let covered := f.units - g.uncovered.length
  (if !f.parses || g.corrupt then [0x24] else []) ++
  (if f.parses && covered * 10 < f.units * 9 then [0x23] else if f.parses && covered < f.units then [1] else []) ++
  (if missing then [0x22] else [])

/-- COVERAGE of a picture of which `covered` units came (R80). -/
def coverageOf (f : UnitFacts) (covered : Nat) : Nat :=
  if f.parses && 0 < f.units then covered * 1000 / f.units else 0

/-- A picture with a tool outside R61 (R62): its headers' marks stand, and the copier conceals it. A reference its headers
name and the pool does not hold is missing here too (DESIGN CHOICE, log 58). -/
def Dev.unsupported (d : Dev) (s : Stream) (p : Pic) (f : UnitFacts) (g : DecodeFacts) : Dev :=
  let k := p.serial
  let reads := d.readsOf s p
  let self := s.taintOf (reads.filterMap fun r => r.1.map (·.serial)) (some k)
  let d := d.modPic s.id k fun p => { p with
    conditions := 0x25 :: ((if p.cut.isSome then [0x24] else []) ++ if reads.any (·.2) then [0x22] else [])
    byteOffset := p.cut.getD 0, decodeVk := g.vk, taint := self, subst := substOf reads
    coverage := coverageOf f (f.units - g.uncovered.length) }
  (d.marking s k f).joinCopier s.id k

/-- An engine finishes its picture (R77, R80 to R87). -/
def Dev.decodeDone (d : Dev) (e : Nat) (g : DecodeFacts) : Dev :=
  match d.inDecode e with
  | none => d
  | some (s, p, _) =>
    let k := p.serial
    let d := (if decide (s.budget ≤ g.vk) && !p.overBudget then d.budgetPassed e else d).freeEngine e g.vk
    match p.facts, p.buf, d.depot? (videoDepot s.cls) with
    | some f, some ix, some dep =>
      if s.beyond f then d.unsupported s p f g
      else
        let reads := d.readsOf s p
        let bad := if f.parses then (g.concealed ++ g.uncovered).eraseDups else upTo f.units
        let codes := findings f g (reads.any (·.2)) ++ if p.cut.isSome then [0x24] else []
        let from_ := d.concealFrom s p
        let depth := p.depth
        let d := d.putPicture s dep ix depth f g bad (from_.1.bind (d.picSrc s))
        let read := reads.filterMap fun r => r.1.map (·.serial)
        let self := if bad.isEmpty && codes.isEmpty then none else some k
        let taint := if s.clean f && self.isNone then none else s.taintOf read self
        let d := d.modPic s.id k fun p => { p with
          conditions := codes.eraseDups ++ (if bad.isEmpty then [] else [1]), decodeVk := g.vk, taint := taint
          subst := substOf reads, concealKind := if bad.isEmpty then 0 else from_.2
          coverage := coverageOf f (f.units - g.uncovered.length)
          byteOffset := p.cut.getD (if !f.parses || g.corrupt then g.byteOffset else 0)
          cuAddr := if f.parses && g.corrupt then g.cuAddr else 0 }
        let d := if f.parses then d.marking s k f else d
        d.finishPic s.id k
    | _, _, _ => d

/-- The samples an engine reports fit the picture's headers (R63). -/
def samplesFit (f : UnitFacts) (g : DecodeFacts) : Bool :=
  g.luma.length == f.width * f.height && g.luma.all (fun v => decide (v < 2 ^ f.depth)) &&
  g.chroma.length == (if f.format = 0 then 0 else 2 * chromaW f * chromaH f) && g.chroma.all fun v => decide (v < 2 ^ f.depth)

/-- What an engine found agrees with itself (R80, R82): the units named exist, the first bad one is concealed, and nothing is
concealed but for corrupt data and missing coverage. -/
def findingsFit (p : Pic) (f : UnitFacts) (g : DecodeFacts) : Bool :=
  (g.concealed ++ g.uncovered).all (fun u => decide (u < f.units)) && g.uncovered.eraseDups.length == g.uncovered.length &&
  decide (g.byteOffset ≤ p.bytes) &&
  if f.parses then
    if g.corrupt then (g.concealed ++ g.uncovered).contains g.cuAddr else g.concealed.isEmpty
  else true

/-- The facts fit the picture: the vk are those spent by now, within the limit, and at least the budget where it has passed
(R88, R90). -/
def decodeFits (d : Dev) (s : Stream) (p : Pic) (t : Nat) (g : DecodeFacts) : Bool :=
  decide (g.vk ≤ s.limit) && decide (t + g.vk ≤ vkNow d) && (!p.overBudget || decide (s.budget ≤ g.vk)) &&
  decide (16 + g.header.length ≤ lumaOff) && decide (g.motion.length ≤ s.motionBytes) &&
  match p.facts with
  | some f => s.beyond f || (findingsFit p f g && (!f.parses || samplesFit f g))
  | none => false

/-- DECODE_COMPLETE is due. -/
def dueDecodeComplete (e : Nat) (g : DecodeFacts) (d : Dev) : Bool :=
  match d.inDecode e with
  | some (s, p, t) => d.mainUp && d.clk.refPresent && decodeFits d s p t g
  | none => false

/-! ### Abandoned pictures (R88, R89, R95) -/

/-- The notices whose COUNT no read has taken yet. -/
def Fn.unread (x : Fn) : List HeavyNote := if x.heavyRead = some .high then x.heavy.drop 1 else x.heavy

/-- A heavy notice: one unread per stream; a full log loses it (R95). -/
def Dev.heavyNote (d : Dev) (f n : Nat) : Dev :=
  if (d.fn f).unread.any (·.stream == n) then
    d.modFn f fun x => { x with
      heavy := x.heavy.take (x.heavy.length - x.unread.length) ++
        modIf (·.stream == n) (fun h => { h with count := satAdd 16 h.count 1 }) x.unread }
  else if 64 ≤ (d.fn f).heavy.length then d.modFn f fun x => { x with heavyOverflow := true }
  else (d.modFn f fun x => { x with heavy := x.heavy ++ [{ stream := n, count := 1 }] }).raiseEvent f 0

/-- What an engine reports of the point where it stops fits the picture (R80, R88). -/
def stopFits (p : Pic) (off cu covered : Nat) (headers : Bool) : Bool :=
  decide (off ≤ p.bytes) && match p.facts with
  | some f => if headers then f.parses && decide (cu < f.units) && decide (covered ≤ f.units) else cu == 0 && covered == 0
  | none => false

/-- PICTURE_ABANDON is due: the picture has reached its abandon limit. -/
def dueAbandon (n k off cu covered : Nat) (headers : Bool) (d : Dev) : Bool :=
  match d.stream? n, d.pic? n k with
  | some s, some p =>
    d.mainUp && stopFits p off cu covered headers && match p.phase with
      | .decoding _ t => decide (t + s.limit ≤ vkNow d)
      | _ => false
  | _, _ => false

/-- The engine stops at the limit: report, marks of parsed headers, HEAVY, and the copier (R88, R89). A picture that is
abandoned no longer counts in OVER_BUDGET (R64). -/
def Dev.abandon (d : Dev) (n k off cu covered : Nat) (headers corrupt : Bool) : Dev :=
  match d.stream? n, d.pic? n k with
  | some s, some p =>
    match p.phase with
    | .decoding e _ =>
      let d := d.freeEngine e s.limit
      let reads := if headers then d.readsOf s p else []
      let taint := s.taintOf (reads.filterMap fun r => r.1.map (·.serial)) (some k)
      let d := d.modPic n k fun p => { p with
        conditions := 0x21 :: ((if corrupt || p.cut.isSome then [0x24] else []) ++ if reads.any (·.2) then [0x22] else [])
        byteOffset := off, cuAddr := cu, decodeVk := s.limit, taint := taint, subst := substOf reads
        coverage := (p.facts.map fun f => coverageOf f covered).getD 0 }
      let d := d.modStream n fun s => { s with
        heavy := true, abandoned := satAdd 32 s.abandoned 1
        overBudget := if p.overBudget then s.overBudget - 1 else s.overBudget }
      let d := (d.modFn s.fn fun x => { x with vdecCnt := bump 1 1 x.vdecCnt }).heavyNote s.fn n
      let d := match p.facts with
        | some f => if headers && f.parses then d.marking s k f else d
        | none => d
      (d.joinCopier n k).putStatus n
    | _ => d
  | _, _ => d

/-! ### Going forward (R27, R78, R80) -/

/-- The first in output order. -/
def firstOut : List Pic → Option Pic
  | [] => none
  | p :: ps =>
    match firstOut ps with
    | none => some p
    | some q =>
      if p.epoch < q.epoch ∨ (p.epoch = q.epoch ∧ (p.order < q.order ∨ (p.order = q.order ∧ p.serial < q.serial))) then some p
      else some q

/-- The latest picture in decode order that has finished with parsed headers: its parameter sets are the active ones. -/
def Stream.active (s : Stream) : Option UnitFacts :=
  (s.pics.filter fun p => p.done && p.parsed).foldl (fun a p => p.facts.orElse fun _ => a) none

/-- Buffers that the stream's DPB holds: references and pictures that await output. -/
def Dev.dpbFull (d : Dev) (s : Stream) (f : UnitFacts) : Bool :=
  let n := (d.video.frames.filter fun x => x.stream == s.id && (x.isRef || 0 < x.outputWait)).length
  let size := dpbOf s.codec f
  if s.codec = 0 then decide (size < n) else decide (size ≤ n) && s.pics.any fun p => !p.done

/-- The picture that goes forward now (R27, R69, R78): the first in output order, where the output process puts it out or
the stream is flushed up to it. -/
def Dev.nextForward (d : Dev) (s : Stream) : Option Pic :=
  match firstOut s.waiting with
  | none => none
  | some p =>
    let bump_ := match s.active with
      | some f =>
        decide (reorderOf s.codec f < s.waiting.length) || d.dpbFull s f ||
          s.waiting.any fun q => (f.latency).any (· ≤ q.latency)
      | none => true
    let old := s.pics.any fun q => q.done && p.epoch < q.epoch
    let broken := s.pics.any fun q => q.phase == .fetched && bitAt q.flags 0 && s.turnOf q && p.serial < q.serial
    if 2 ≤ s.codec || bump_ || old || broken || decide (p.serial < s.flushTo) || (s.closing && s.pics.all (·.done)) then some p
    else none

/-- A flushed picture waits for those before it in decode order to finish (R69). -/
def dueForward (n : Nat) (d : Dev) : Bool :=
  match d.stream? n with
  | some s => d.mainUp && (d.nextForward s).isSome
  | none => false

/-- A picture's number in a report: its own, or that of one gone forward before (R80). -/
def Stream.nameOf (s : Stream) (self number : Nat) : Option Nat → Nat
  | none => 0xFFFFFFFF
  | some k =>
    if k = self then number
    else
      match (s.pic? k).bind (·.number) with
      | some n => n
      | none => 0xFFFFFFFE

/-- The decode report of R80. Of a picture without a parsed header it gives the codec's usual unit and the type it was
concealed as (DESIGN CHOICE, log 58). -/
def decodeReport (s : Stream) (p : Pic) (number : Nat) : List Byte :=
  let f := p.facts.filter (·.parses)
  let cu := match s.codec with | 0 => 4 | 1 => 6 | 2 => 6 | _ => 3
  let ty := if s.codec = 3 then 3 else match f with
    | some f => f.picType
    | none => if p.noDecode then 0 else if p.concealKind = 2 then 1 else 0
  le 4 number ++ le 4 p.byteOffset ++
  le 4 (p.cuAddr % 2 ^ 24 + ((f.map (·.unitW)).getD cu) % 16 * 2 ^ 24 + ((f.map (·.unitH)).getD cu) % 16 * 2 ^ 28) ++
  le 4 p.decodeVk ++ le 4 (s.nameOf p.serial number p.taint) ++ le 4 (s.nameOf p.serial number p.subst) ++
  le 8 (p.coverage % 1024 + p.concealKind * 2 ^ 10 + p.engine % 16 * 2 ^ 12 + ty % 16 * 2 ^ 16 + b2n p.reference * 2 ^ 20 +
    b2n p.heavy * 2 ^ 21)

/-- The picture is made into tensors: neither skipped nor refused (R126). -/
def Pic.delivers (p : Pic) : Bool := !p.conditions.any fun c => c == 0x05 || c == 0x20

/-- What its place in the outputs does to the marks of the stream's buffers (R75, R77). -/
def Dev.outputMarks (d : Dev) (s : Stream) (p : Pic) : Dev :=
  match p.buf with
  | none => d
  | some b =>
    let until_ := if 0 < s.ttlMs then some (d.ticks + s.ttlMs * msTicks) else none
    let age := d.video.holdSeq
    let d := d.modVideo fun v => { v with
      frames := modIf (·.stream == s.id) (fun f => { f with lastOutput := false }) v.frames, holdSeq := age + 1 }
    let d := d.modFrame s.cls b fun f => { f with
      outputWait := f.outputWait - 1, lastOutput := true
      cacheUntil := if until_.isSome then until_ else f.cacheUntil, age := age }
    d.modStream s.id fun s => { s with lastOut := some p.serial, tainted := p.taint.isSome }

/-- A pass of a picture for a route slot (R132). -/
def mkPass (seq route slot stream serial : Nat) : Pass :=
  { seq := seq, route := route, slot := slot, stream := stream, serial := serial, inBuf := none, outBuf := none,
    unit := none, startTick := 0, params := [], norm := [] }

/-- The outcome of a picture on a route where no job runs (R28, R126, R127). -/
def bareResult (f route slot stream serial : Nat) (codes : List Nat) : Result :=
  { fn := f, route := route, slot := slot, stream := stream, serial := serial, codes := codes, job := none, outBuf := none,
    outAddr := 0, outLen := 0, waybill := 0, hash := [], batch := 0, actualCk := 0, replayCk := 0, slipCk := 0,
    arith := 0, win := 0 }

/-- A pass for each used slot of the stream, or an outcome without one (R28, R132); two slots of one route have one each
(DESIGN CHOICE, log 64). -/
def Dev.fanOut (d : Dev) (s : Stream) (p : Pic) : Dev :=
  s.slots.foldl (fun d q =>
    match p.delivers, p.buf with
    | true, some b =>
      let seq := d.video.passSeq
      (d.modVideo fun v => { v with
        passes := v.passes ++ [mkPass seq q.2 q.1 s.id p.serial], passSeq := seq + 1 }).addReader s.cls b
    | _, _ =>
      { d with trk := { d.trk with results := d.trk.results ++ [bareResult s.fn q.2 q.1 s.id p.serial []] } }) d

/-- Counters of a picture that goes forward (R64, R92). -/
def Dev.countForward (d : Dev) (s : Stream) (p : Pic) : Dev :=
  let has := fun (c : Nat) => p.conditions.contains c
  let conc := p.delivers && p.conditions.any fun c => c == 1 || (0x21 ≤ c && c ≤ 0x25)
  let d := d.modFn s.fn fun x => { x with
    vdecCnt := bump 4 (b2n (has 0x05)) (bump 3 (b2n (has 0x20)) (bump 2 (b2n conc) (bump 0 1 x.vdecCnt))) }
  d.modStream s.id fun s => { s with concealed := satAdd 32 s.concealed (b2n conc) }

/-- A picture goes forward (R27): number, report, marks, passes, counts, status words. -/
def Dev.goForward (d : Dev) (n : Nat) : Dev :=
  match d.stream? n with
  | none => d
  | some s =>
    match d.nextForward s with
    | none => d
    | some p =>
      let num := s.nextPicture
      let redact := s.slots.any fun q => bitAt (at_ (d.routeDesc q.2) 1 1) 1
      let d := d.modPic n p.serial fun p => { p with
        phase := .gone, number := some num, report := decodeReport s p num, recordsDue := s.slots.map (·.1)
        maskDue := redact }
      let d := d.modStream n fun s => { s with nextPicture := (num + 1) % 2 ^ 32 }
      let d := d.outputMarks s p
      let d := d.fanOut s p
      ((d.countForward s p).putStatus n).tidy n

/-- CACHE_TTL_EXPIRE is due (R26). -/
def dueTtl (cls ix : Nat) (d : Dev) : Bool :=
  d.mainUp && (d.video.frame? cls ix).any fun f => f.cacheUntil.any fun t => decide (t ≤ d.ticks)

/-- The cache hold of a buffer goes (R26). -/
def Dev.ttlExpire (d : Dev) (cls ix : Nat) : Dev :=
  let n := ((d.video.frame? cls ix).map (·.stream)).getD 0
  (d.modFrame cls ix fun f => { f with cacheUntil := none }).tidy n

/-! ### Meanings -/

/-- STREAM_OPEN (R65). -/
def execStreamOpen (fn stream tag : Nat) (s : State) : Host.Outcome State Fault Refusal :=
  always s fun d => d.access fn .rest fun d => d.streamOp fn 1 (stream % 2 ^ 14) (tag % 256)

/-- STREAM_CLOSE (R67). -/
def execStreamClose (fn stream tag : Nat) (s : State) : Host.Outcome State Fault Refusal :=
  always s fun d => d.access fn .rest fun d => d.streamOp fn 2 (stream % 2 ^ 14) (tag % 256)

/-- CLEAR_HEAVY (R89). -/
def execClearHeavy (fn stream tag : Nat) (s : State) : Host.Outcome State Fault Refusal :=
  always s fun d => d.access fn .rest fun d => d.streamOp fn 3 (stream % 2 ^ 14) (tag % 256)

/-- VDEC_HEAVY_LOG as it reads (R95): the half of the oldest notice that a read has taken is clear (R11). -/
def Fn.heavyWord (x : Fn) : Nat :=
  match x.heavy with
  | [] => b2n x.heavyOverflow * 2 ^ 62
  | h :: _ => leftOf x.heavyRead (h.stream + h.count * 2 ^ 32 + 2 ^ 63) + b2n x.heavyOverflow * 2 ^ 62

/-- A read clears what it returns (R10, R11, R95): a notice goes once both its halves are read. -/
def Fn.heavyTaken (x : Fn) (h : Half) : Fn :=
  let r := readBoth x.heavyRead h
  { x with heavy := if r.isNone then x.heavy.drop 1 else x.heavy, heavyRead := if x.heavy.isEmpty then none else r
           heavyOverflow := x.heavyOverflow && h == .low }

/-- HEAVY_LOG_READ (R95). -/
def execHeavyLogRead (fn : Nat) (half : Half) (s : State) : Host.Outcome State Fault Refusal :=
  always s fun d =>
    d.accessRead fn .rest (if half == .full then 8 else 4) fun d =>
      (d.modFn fn fun x => x.heavyTaken half, halfRead half (d.fn fn).heavyWord)

/-- What a frame's headers say fits its codec (R61, R69, R77, R80). -/
def headersFit (codec : Nat) (f : UnitFacts) : Bool :=
  f.self ≤ 2 && (codec == 2 || (!f.hidden && !f.showExisting && f.refresh == 0)) && decide (f.refresh < 256) &&
  (codec ≤ 1 || (f.keepShort.isEmpty && f.keepLong.isEmpty && f.self == 0)) && (codec != 3 || f.refs.isEmpty) &&
  (codec != 2 || f.refs.all fun r => decide (0 ≤ r) && decide (r < 8)) &&
  (!f.parses || f.showExisting ||
    ((match codec with
      | 0 => f.unitW == 4 && f.unitH == 4
      | 1 => 4 ≤ f.unitW && f.unitW ≤ 6 && f.unitH == f.unitW
      | 2 => 6 ≤ f.unitW && f.unitW ≤ 7 && f.unitH == f.unitW
      | _ => 3 ≤ f.unitW && f.unitW ≤ 4 && 3 ≤ f.unitH && f.unitH ≤ 4) &&
    f.units == ceilDiv f.width (2 ^ f.unitW) * ceilDiv f.height (2 ^ f.unitH) && f.picType ≤ 2))

/-- The frames of one coded unit (R61, R69): one, but for an AV1 temporal unit, of whose frames at most one is shown. -/
def unitFits (codec : Nat) (fs : List UnitFacts) : Bool :=
  !fs.isEmpty && fs.all (headersFit codec) && (codec == 2 || fs.length == 1) &&
  decide ((fs.filter fun f => !f.hidden).length ≤ 1)

/-- CHUNK_FETCHED is due: the fetch of the chunk has begun or may begin, and the function may issue requests (R91,
R393). -/
def dueChunk (n k : Nat) (fs : List UnitFacts) (d : Dev) : Bool :=
  match d.stream? n, d.pic? n k with
  | some s, some p =>
    d.mainUp && p.phase == .fetching && d.mayRequest s.fn && (p.begun || d.mayFetch s) && unitFits s.codec fs
  | _, _ => false

/-- The picture of frame `i` of a chunk of `n` frames: DISCONTINUITY acts before the first, END_OF_STREAM after the last
(R69). -/
def framePic (p : Pic) (now n i : Nat) (f : UnitFacts) : Pic :=
  { p with
    serial := p.serial + i, phase := .fetched, begun := true, facts := some f, fetchedVk := now
    flags := (if i = 0 then p.flags % 2 else 0) + (if i + 1 = n then p.flags / 2 % 2 * 2 else 0) + p.flags / 4 * 4
    shown := !(f.parses && f.hidden) }

/-- The pictures of a chunk of frames. -/
def framePics (p : Pic) (now : Nat) (fs : List UnitFacts) : List Pic :=
  (List.zip (upTo fs.length) fs).map fun q => framePic p now fs.length q.1 q.2

/-- The last byte of a chunk is in the device (R70): each frame of it is a picture, and the chunks after it keep their place
in decode order. -/
def Dev.chunkFetched (d : Dev) (n k : Nat) (fs : List UnitFacts) : Dev :=
  let now := vkNow d
  d.modStream n fun s => { s with
    nextSerial := s.nextSerial + (fs.length - 1)
    pics := s.pics.flatMap fun p =>
      if p.serial = k then framePics p now fs
      else if k < p.serial then [{ p with serial := p.serial + (fs.length - 1) }] else [p] }

/-- CHUNK_FETCHED (R70). -/
def execChunkFetched (stream serial : Nat) (frames : List UnitFacts) (s : State) : Host.Outcome State Fault Refusal :=
  whenDue "CHUNK_FETCHED" (dueChunk stream serial frames s.dev) s fun d => d.chunkFetched stream serial frames

/-- PICTURE_READY (R71, R69, R79, R86). -/
def execPictureReady (stream serial : Nat) (s : State) : Host.Outcome State Fault Refusal :=
  whenDue "PICTURE_READY" (duePicReady stream serial s.dev) s fun d =>
      match d.stream? stream, d.pic? stream serial with
      | some x, some p => (d.turnPic x p).getD d
      | _, _ => d

/-- DECODE_START (R72). -/
def execDecodeStart (engine : Nat) (s : State) : Host.Outcome State Fault Refusal :=
  whenDue "DECODE_START" (dueDecodeStart engine s.dev) s fun d => d.decodeStart engine

/-- BUDGET_PASSED (R88). -/
def execBudgetPassed (engine : Nat) (s : State) : Host.Outcome State Fault Refusal :=
  whenDue "BUDGET_PASSED" (dueBudget engine s.dev) s fun d => d.budgetPassed engine

/-- PICTURE_ABANDON (R88, R89). -/
def execPictureAbandon (stream serial byteOffset : Nat) (units : StopUnits) (headers corrupt : Bool) (s : State) :
    Host.Outcome State Fault Refusal :=
  whenDue "PICTURE_ABANDON" (dueAbandon stream serial byteOffset units.cuAddr units.covered headers s.dev) s fun d =>
      d.abandon stream serial byteOffset units.cuAddr units.covered headers corrupt

/-- CONCEAL_COPY_DONE (R88). -/
def execConcealCopyDone (s : State) : Host.Outcome State Fault Refusal :=
  whenDue "CONCEAL_COPY_DONE" (dueCopyDone s.dev) s Dev.copyDone

/-- DECODE_COMPLETE (R77, R80). -/
def execDecodeComplete (engine : Nat) (facts : DecodeFacts) (s : State) : Host.Outcome State Fault Refusal :=
  whenDue "DECODE_COMPLETE" (dueDecodeComplete engine facts s.dev) s fun d => d.decodeDone engine facts

/-- PICTURE_GO_FORWARD (R27). -/
def execPictureGoForward (stream : Nat) (s : State) : Host.Outcome State Fault Refusal :=
  whenDue "PICTURE_GO_FORWARD" (dueForward stream s.dev) s fun d => d.goForward stream

/-- CACHE_TTL_EXPIRE (R26). -/
def execCacheTtlExpire (cls buf : Nat) (s : State) : Host.Outcome State Fault Refusal :=
  whenDue "CACHE_TTL_EXPIRE" (dueTtl cls buf s.dev) s fun d => d.ttlExpire cls buf

end Sys2Proof.Machine
end

