-- ==== Sys2Proof/Machine/Pre.lean ====
section
/-! DEFINITION. From picture to tensor: routes, preprocessing parameters, sampling, colour, normalisation, tensors and
the scale-and-tensorise units (R123 to R141, R390). -/

namespace Sys2Proof.Machine

/-! ### Preprocessing parameters (R125, R127) -/

/-- Every field of a block lies in its range. -/
def preprocOk (p : List Byte) : Bool :=
  let g := fun o n => at_ p o n
  (upTo 4).all (fun i => g (2 * i) 2 % 2 == 0) && (g 4 2 != 0 || g 0 2 == 0) && (g 6 2 != 0 || g 2 2 == 0) &&
  8 ≤ g 8 2 && g 8 2 ≤ 4096 && 8 ≤ g 0xA 2 && g 0xA 2 ≤ 4096 && g 0xC 1 ≤ 3 && g 0xD 1 ≤ 1 && g 0xE 1 ≤ 4 && g 0xF 1 ≤ 15 &&
  g 0x10 1 ≤ 3 && g 0x11 1 < 4 && (g 0x12 1 == 1 || g 0x12 1 == 3 || g 0x12 1 == 4) && g 0x13 1 ≤ 7 &&
  ((p.drop 0x14).take 12).all (· == 0)

def prmOutW (p : List Byte) : Nat := at_ p 8 2
def prmOutH (p : List Byte) : Nat := at_ p 0xA 2
def prmChans (p : List Byte) : Nat := at_ p 0x12 1
def prmHalo (p : List Byte) : Nat := at_ p 0x13 1
def prmFmt (p : List Byte) : Nat := at_ p 0x10 1
def prmChw (p : List Byte) : Bool := bitAt (at_ p 0x11 1) 0
def prmBgr (p : List Byte) : Bool := bitAt (at_ p 0x11 1) 1
/-- Bytes of an element of a FORMAT (R130). -/
def elemBytes (fmt : Nat) : Nat := if fmt < 2 then 1 else 2

/-- The row pitch of a tensor (R130). -/
def tensorPitch (p : List Byte) : Nat :=
  roundUp ((prmOutW p + 2 * prmHalo p) * (if prmChw p then 1 else prmChans p) * elemBytes (prmFmt p)) 64

/-- The bytes of a tensor (R130). -/
def tensorLen (p : List Byte) : Nat :=
  (prmOutH p + 2 * prmHalo p) * tensorPitch p * (if prmChw p then prmChans p else 1)

/-- The crop window has a sample inside a decoded picture (R127). -/
def cropInside (p : List Byte) (w h : Nat) : Bool :=
  let g := cropGeo p w h
  decide (g.cropX < w) && decide (g.cropY < h) && decide (0 < g.cropW) && decide (0 < g.cropH)

/-! ### Sampling (R128) -/

/-- The grid point of a tensor element. -/
def gridPoint (g : CropGeo) (u v : Nat) : Int × Int :=
  match g.rot with
  | 0 => (u, v)
  | 1 => (v, (g.hp : Int) - 1 - u)
  | 2 => ((g.wp : Int) - 1 - u, (g.hp : Int) - 1 - v)
  | _ => ((g.wp : Int) - 1 - v, u)

/-- The luma sampling point of a grid point, 16.16. -/
def lumaPoint (g : CropGeo) (q : Int × Int) : Int × Int :=
  let sx : Int := ((g.cropW * 65536 / g.wp : Nat) : Int)
  let sy : Int := ((g.cropH * 65536 / g.hp : Nat) : Int)
  (((g.cropX * 65536 : Nat) : Int) + ((2 * q.1 + 1) * sx) / 2 - 32768,
   ((g.cropY * 65536 : Nat) : Int) + ((2 * q.2 + 1) * sy) / 2 - 32768)

/-- The chroma point of a luma point. -/
def chromaPoint (q : Int × Int) : Int × Int := (q.1 / 2, (q.2 - 32768) / 2)

/-- A plane of 10-bit samples read at a point: bilinear or nearest, its indices clamped. -/
def samplePlane (nearest : Bool) (rd : Nat → Nat → Nat) (pw ph : Nat) (q : Int × Int) : Nat :=
  if nearest then rd (clampIx pw ((q.1 + 32768) / 65536)) (clampIx ph ((q.2 + 32768) / 65536))
  else
    let i := q.1 / 65536
    let j := q.2 / 65536
    let fx := (q.1 % 65536).toNat / 256
    let fy := (q.2 % 65536).toNat / 256
    let s := fun (a b : Int) => rd (clampIx pw a) (clampIx ph b)
    ((s i j * (256 - fx) + s (i + 1) j * fx) * (256 - fy) + (s i (j + 1) * (256 - fx) + s (i + 1) (j + 1) * fx) * fy + 32768)
      / 65536

/-! ### Colour (R129) -/

/-- oy, ky, krv, kgu, kgv, kbu of a COLOUR. -/
def colourConsts : Nat → Int × Int × Int × Int × Int × Int
  | 0 => (64, 4769, 6537, 1605, 3330, 8263)
  | 1 => (64, 4769, 7343, 873, 2183, 8652)
  | 2 => (0, 4096, 5743, 1410, 2925, 7258)
  | 3 => (0, 4096, 6450, 767, 1917, 7601)
  | _ => (64, 4769, 6876, 767, 2664, 8773)

/-- RGB of 10-bit YCbCr. -/
def toRgb (colour y cb cr : Nat) : List Nat :=
  let (oy, ky, krv, kgu, kgv, kbu) := colourConsts colour
  let l : Int := ky * ((y : Int) - oy)
  let b : Int := (cb : Int) - 512
  let r : Int := (cr : Int) - 512
  let c := fun (i : Int) => (clampI 0 1023 ((i + 2048) / 4096)).toNat
  [c (l + krv * r), c (l - kgu * b - kgv * r), c (l + kbu * b)]

/-- The luma channel alone. -/
def toLuma (colour y : Nat) : Nat :=
  let (oy, ky, _) := colourConsts colour
  (clampI 0 1023 ((ky * ((y : Int) - oy) + 2048) / 4096)).toNat

/-! ### Normalisation (R130, R140) -/

/-- An element of a FORMAT from a 10-bit channel value and its PRE_NORM word. -/
def normElem (fmt norm v : Nat) : Nat :=
  let scale := match g32 (bits norm 0 32) with
    | .fin s m e => FV.fin s m e
    | _ => fZero false
  let f := fMul fp32 (fOfInt ((v : Int) - bits norm 32 10)) scale
  let zero := sext 8 (bits norm 48 8)
  let int := fun (lo hi : Int) => match f with
    | .fin s m e => clampI lo hi (rneInt s m e + zero)
    | .inf s => if s then lo else hi
    | .nan => 0
  match fmt with
  | 0 => (int 0 255).toNat
  | 1 => wrapInt 8 (int (-128) 127)
  | 2 => (cvtFloat fp16 false f).1
  | _ => (cvtFloat bf16 false f).1

/-- The channels of a grid point of a picture, before normalisation, in tensor order: 1 or 3 of them. -/
def Dev.channelsAt (d : Dev) (q : PicSrc) (p : List Byte) (pt : Int × Int) : List Nat :=
  let up := fun (v : Nat) => if q.depth ≤ 8 then v * 4 else v
  let near := at_ p 0xD 1 == 1
  let colour := at_ p 0xE 1
  let y := samplePlane near (fun i j => up (d.lumaAt q i j)) q.w q.h pt
  if prmChans p = 1 then [toLuma colour y]
  else
    let c := fun (k : Nat) =>
      samplePlane near (fun i j => up (d.chromaAt q k i j)) ((q.w + 1) / 2) ((q.h + 1) / 2) (chromaPoint pt)
    let l := toRgb colour y (c 0) (c 1)
    if prmBgr p then l.reverse else l

/-- The channels of tensor element (u, v) of a pass, normalised. -/
def Dev.tensorAt (d : Dev) (q : PicSrc) (p : List Byte) (norm : List Nat) (u v : Nat) : List Nat :=
  let g := cropGeo p q.w q.h
  let l := d.channelsAt q p (lumaPoint g (gridPoint g u v))
  (List.zip (upTo l.length) l).map fun e => normElem (prmFmt p) ((norm[e.1]?).getD 0) e.2

/-! ### Tensors -/

/-- Row bytes from elements, the tail filled with the pad pattern (R130). -/
def rowBytes (pitch s pad : Nat) (es : List Nat) : List Byte :=
  let bs := es.flatMap (le s)
  bs ++ (List.replicate ((pitch - bs.length) / s) (le s pad)).flatMap id

/-- The bytes of a tensor from its elements: `px[v][u]` lists the real channels of element (u, v) (R130). -/
def tensorBytes (p : List Byte) (pad : Nat) (px : List (List (List Nat))) : List Byte :=
  let s := elemBytes (prmFmt p)
  let h := prmHalo p
  let c := prmChans p
  let w := prmOutW p
  let pitch := tensorPitch p
  let halo := List.replicate (h * (if prmChw p then 1 else c)) pad
  let blank := rowBytes pitch s pad (List.replicate ((w + 2 * h) * (if prmChw p then 1 else c)) pad)
  let frame := fun (rows : List (List Byte)) =>
    (List.replicate h blank).flatMap id ++ rows.flatMap id ++ (List.replicate h blank).flatMap id
  if prmChw p then
    (upTo c).flatMap fun k => frame (px.map fun row =>
      rowBytes pitch s pad (halo ++ row.map (fun e => (e[k]?).getD pad) ++ halo))
  else
    frame (px.map fun row => rowBytes pitch s pad (halo ++ row.flatMap (fun e => e ++ List.replicate (c - e.length) pad) ++ halo))

/-- The digest of elements in order, from an index (R322). -/
def elemsDigest : Nat → List Nat → Nat × Nat → Nat × Nat
  | _, [], a => a
  | i, v :: vs, a =>
    let h := elemHash i v
    elemsDigest (i + 1) vs ((a.1 + h) % 2 ^ 64, a.2 ^^^ h)

/-- A normalisation set of a function. -/
def Fn.normSet (x : Fn) (k : Nat) : NormSet := (x.norm[k]?).getD NormSet.reset

/-! ### Routes (R123, R124, R138, R139) -/

/-- A route command ends (R139). -/
def Dev.routeCmdEnds (d : Dev) (f r tag res check : Nat) : Dev :=
  d.modFn f fun x => { x with routeSts := { x.routeSts with result := res, tag := tag, a := r, b := check } }

/-- Bytes of a buffer of a depot; 0 where the charter has none. -/
def Dev.bufLen (d : Dev) (id : Nat) : Nat := ((d.depot? id).map fun x => x.bufKib * 1024).getD 0

/-- Check 1 of R124 on a descriptor's bytes. -/
def routeFieldsOk (e : List Byte) : Bool :=
  let g := fun o n => at_ e o n
  let seqRoute := bitAt (g 1 1) 2
  g 0 1 ≤ 5 && g 1 1 < 8 && (g 2 1 ≤ 15 || g 2 1 == 0xFF) && (g 3 1 ≤ 15 || g 3 1 == 0xFF) && g 4 4 < 2 ^ 20 &&
  g 8 2 ≤ 1023 && ((e.drop 0xA).take 22).all (· == 0) && variant0 e != 0 && preprocOk ((e.drop 0x40).take 32) &&
  trackerOk (e.drop 0x60) && !(seqRoute && (bitAt (g 1 1) 1 || bitAt (g 1 1) 0))
where
  variant0 (e : List Byte) : Nat := at_ e 0x20 8

/-- Offset of a route's entry in its function's COMMON grant. -/
def Dev.routeEntry (d : Dev) (f r : Nat) : Nat :=
  (d.fn f).preBase + 128 * (r - ((d.funcCfg? f).map (·.routeFirst)).getD 0)

/-- The lengths of a manifest's regions of a kind. -/
def Manifest.kindLens (m : Manifest) (k : Nat) : List Nat := (m.regions.filter (·.kind == k)).map (·.len)

/-- All of a list are equal. -/
def allSame (l : List Nat) : Bool := match l with
  | [] => true
  | a :: as => as.all (· == a)

/-- The first failed check of R124 with its result, checks 2 to 7; none where BIND succeeds. -/
def Dev.bindFail (d : Dev) (f r : Nat) (e : List Byte) : Option (Nat × Nat) :=
  let seqRoute := bitAt (at_ e 1 1) 2
  let part := at_ e 0 1
  match d.part? part with
  | none => some (3, 2)
  | some p =>
    let ks := (upTo 4).filter fun k => at_ e (0x20 + 8 * k) 8 != 0
    let ms := ks.map fun k => (k, d.manifest p (at_ e (0x20 + 8 * k) 8))
    let lens := fun k => ms.flatMap fun m => m.2.kindLens k
    let inLen := d.bufLen (inputDepot part)
    let outLen := d.bufLen (outputDepot part)
    if p.owner != f || (!seqRoute && !d.ownsQueue f (at_ e 4 4)) then some (3, 2)
    else if ms.any fun m => d.manifestCheck p true false m.2.off != 0 || m.2.batch != 2 ^ m.1 then some (1, 3)
    else if (if seqRoute then ks != [0] || ms.any fun m => (m.2.kindLens 0).length != 2 || (m.2.kindLens 1).length != 1
        else ms.any fun m => (m.2.kindLens 0).length != m.2.batch || (m.2.kindLens 1).length != m.2.batch) then some (1, 4)
    else if !seqRoute && (!allSame (lens 0) || !allSame (lens 1)) then some (1, 5)
    else if (if seqRoute then (lens 0).any fun n => inLen < n + 64 else inLen < tensorLen ((e.drop 0x40).take 32) + 64) ||
        (lens 1).any (fun n => outLen < n + 64) then some (2, 6)
    else if (d.route? r).isSome then some (4, 7)
    else none

/-- BIND (R124). -/
def Dev.routeBind (d : Dev) (f r tag : Nat) : Dev :=
  if !d.sealed then d.routeCmdEnds f r tag 4 8
  else if !d.ownsRoute f r then d.routeCmdEnds f r tag 3 2
  else
    let off := d.routeEntry f r
    let e := d.commonRead f off 128
    if !inSpan (d.commonGrant f).2 off 128 || !routeFieldsOk e then d.routeCmdEnds f r tag 1 1
    else
      match d.bindFail f r e with
      | some x => d.routeCmdEnds f r tag x.1 x.2
      | none =>
        let new : Route := { id := r, fn := f, desc := e, bound := true }
        (d.modVideo fun v => { v with routes := v.routes.filter (fun x => x.id != r) ++ [new] }).routeCmdEnds f r tag 0 0

/-- UNBIND (R124): the descriptor stays for pictures in flight (log 17). -/
def Dev.routeUnbind (d : Dev) (f r tag : Nat) : Dev :=
  if !d.ownsRoute f r then d.routeCmdEnds f r tag 3 0
  else if (d.route? r).isNone || d.video.streams.any fun s => s.slots.any fun q => q.2 == r then d.routeCmdEnds f r tag 4 0
  else
    (d.modVideo fun v => { v with routes := modIf (·.id == r) (fun x => { x with bound := false }) v.routes }).routeCmdEnds
      f r tag 0 0

/-- PRE_ROUTE_CMD by its OP (R138). -/
def Dev.routeOp (d : Dev) (f op r tag : Nat) : Dev :=
  d.takeCmd f .route 200 fun d => match op with
  | 1 => d.routeBind f r tag
  | 2 => d.routeUnbind f r tag
  | _ => d.routeCmdEnds f r tag 1 0

/-! ### Passes (R126, R127, R131, R132, R390) -/

/-- The effective parameter block of a pass (R126). -/
def Dev.passParams (d : Dev) (x : Pass) : List Byte :=
  match d.pic? x.stream x.serial with
  | some p => if x.slot = 0 && bitAt p.flags 2 then p.overrides else ((d.routeDesc x.route).drop 0x40).take 32
  | none => ((d.routeDesc x.route).drop 0x40).take 32

/-- The partition of a pass. -/
def Dev.passPart (d : Dev) (x : Pass) : Nat := at_ (d.routeDesc x.route) 0 1

/-- The pass runs (R127). -/
def Dev.passValid (d : Dev) (x : Pass) : Bool :=
  let b := d.passParams x
  preprocOk b && tensorLen b + 64 ≤ d.bufLen (inputDepot (d.passPart x)) &&
  match d.pic? x.stream x.serial with
  | some p => cropInside b p.width p.height
  | none => false

/-- An input buffer and an output buffer for the preprocessing stage, or neither (R390). -/
def Dev.passBufs (d : Dev) (part : Nat) : Option (Nat × Nat × Dev) :=
  match d.alloc (inputDepot part) stagePre with
  | some (i, d) =>
    match d.alloc (outputDepot part) stagePre with
    | some (o, d) => some (i, o, d)
    | none => none
  | none => none

/-- A pass changed. -/
def Dev.modPass (d : Dev) (seq : Nat) (g : Pass → Pass) : Dev :=
  d.modVideo fun v => { v with passes := modIf (·.seq == seq) g v.passes }

/-- A pass is granted its two buffers; none where they cannot both be had. -/
def Dev.grantPass (d : Dev) (x : Pass) : Option Dev :=
  if x.inBuf.isSome then some d
  else (d.passBufs (d.passPart x)).map fun r => r.2.2.modPass x.seq fun x => { x with inBuf := some r.1, outBuf := some r.2.1 }

/-- A pass waits for a unit and could begin: its buffers are had, or it will not run at all (R127, R132). -/
def Dev.eligible (d : Dev) (x : Pass) : Bool := x.unit.isNone && (!d.passValid x || (d.grantPass x).isSome)

/-- The eligible pass created first (R132). -/
def Dev.firstPass (d : Dev) : Option Pass := d.video.passes.find? d.eligible

/-- PSC_PASS_START is due: the unit is the lowest free one (R132, R475). -/
def duePassStart (u : Nat) (d : Dev) : Bool :=
  d.mainUp && d.clk.refPresent && !d.clk.vssStopped && (d.video.psc.findIdx? fun x => x.pass.isNone) == some u &&
  d.firstPass.isSome

/-- The frame a pass reads loses one reader (R77). -/
def Dev.passReads (d : Dev) (x : Pass) : Dev :=
  match d.stream? x.stream, d.pic? x.stream x.serial with
  | some s, some p =>
    match p.buf with
    | some b => d.dropReader s.cls b s.id
    | none => d
  | _, _ => d

/-- A pass that does not run: PARAMS_INVALID for its picture on this route, its buffers freed (R127). -/
def Dev.refusePass (d : Dev) (x : Pass) : Dev :=
  let part := d.passPart x
  let d := match x.inBuf, x.outBuf with
    | some i, some o => (d.freeBuf (inputDepot part) i).freeBuf (outputDepot part) o
    | _, _ => d
  let f := ((d.stream? x.stream).map (·.fn)).getD 0
  let d := d.modVideo fun v => { v with passes := v.passes.filter fun y => y.seq != x.seq }
  let d := d.modFn f fun y => { y with preCnt := bump 1 1 y.preCnt }
  let r := bareResult f x.route x.slot x.stream x.serial [0x26]
  ({ d with trk := { d.trk with results := d.trk.results ++ [r] } } : Dev).passReads x

/-- A unit takes the eligible pass created first; it reads the parameters and the set (R131, R132). -/
def Dev.passStart (d : Dev) (u : Nat) : Dev :=
  match d.firstPass with
  | none => d
  | some x =>
    if !d.passValid x then d.refusePass x
    else
      match d.grantPass x with
      | none => d
      | some d =>
        let b := d.passParams x
        let f := ((d.stream? x.stream).map (·.fn)).getD 0
        let set := (d.fn f).normSet (at_ b 0xF 1)
        let d := d.modPass x.seq fun y => { y with
          unit := some u, startTick := d.run, params := b, norm := set.ch ++ [set.pad] }
        d.modVideo fun v => { v with
          psc := modAt (fun y => { y with pass := some x.seq, lastRoute := x.route }) u v.psc }

/-- The vk a pass takes (R131). -/
def passVk (b : List Byte) : Nat := ceilDiv (13 * (prmOutW b + 2 * prmHalo b) * (prmOutH b + 2 * prmHalo b)) 100

/-- The pass on a unit. -/
def Dev.onUnit (d : Dev) (u : Nat) : Option Pass :=
  ((d.video.psc[u]?).bind (·.pass)).bind fun k => d.video.passes.find? (·.seq == k)

/-- PASS_VK of a unit: vk spent so far on its pass, or on its last one (R141). -/
def Dev.passSoFar (d : Dev) (u : PscUnit) : Nat :=
  match u.pass.bind fun k => d.video.passes.find? (·.seq == k) with
  | some x => (d.run - x.startTick) / vkTicks
  | none => u.passVk

/-- PSC_PASS_COMMIT is due (R131). -/
def duePassCommit (u : Nat) (d : Dev) : Bool :=
  match d.onUnit u with
  | some x => d.mainUp && decide (x.startTick + passVk x.params * vkTicks ≤ d.run)
  | none => false

/-- A unit is free of a pass that took so many vk (R137, R141). -/
def PscUnit.freed (u : PscUnit) (vk : Nat) : PscUnit := { u with pass := none, passVk := vk, busyVk := satAdd 64 u.busyVk vk }

/-- A new job identifier of a partition (R358). -/
def Dev.newJob (d : Dev) (part : Nat) : Nat × Dev :=
  let n := ((d.part? part).map (·.jobSeq)).getD 0
  (part * 2 ^ 29 + n, d.modPart part fun p => { p with jobSeq := (p.jobSeq + 1) % 2 ^ 29 })

/-- The tensor of a pass written to its buffer, with its input digest (R130, R328). -/
def Dev.makeTensor (d : Dev) (x : Pass) (q : PicSrc) : (Nat × Nat) × Dev :=
  let b := x.params
  let px := (upTo (prmOutH b)).map fun v => (upTo (prmOutW b)).map fun u => d.tensorAt q b x.norm u v
  let pad := if prmFmt b < 2 then (x.norm[3]?).getD 0 % 256 else (x.norm[3]?).getD 0
  let dig := elemsDigest 0 (px.flatMap fun row => row.flatMap id) (0, 0)
  match x.inBuf, d.depot? (inputDepot (d.passPart x)) with
  | some i, some dep => (dig, d.bufWrite dep i 64 (tensorBytes b pad px))
  | _, _ => (dig, d)

/-- A pass commits its tensor to the tail of its partition's dispatch list (R133, R384). -/
def Dev.passCommit (d : Dev) (u : Nat) : Dev :=
  match d.onUnit u with
  | none => d
  | some x =>
    let d := d.modVideo fun v => { v with
      psc := modAt (fun y => y.freed (passVk x.params)) u v.psc
      passes := v.passes.filter fun y => y.seq != x.seq }
    match d.stream? x.stream, d.pic? x.stream x.serial, x.inBuf, x.outBuf with
    | some s, some p, some i, some o =>
      match d.picSrc s p with
      | none => d
      | some q =>
        let part := d.passPart x
        let t := d.makeTensor x q
        let ref : TensorRef :=
          { route := x.route, stream := x.stream, serial := x.serial, picture := p.number.getD 0, inBuf := i, outBuf := o,
            slot := x.slot,
            status := condMask p.conditions, digSum := t.1.1, digXor := t.1.2, params := x.params }
        let j := t.2.newJob part
        let e : JobEntry :=
          { id := j.1, part := part, fn := s.fn, src := .route x.route [ref], mf := at_ (d.routeDesc x.route) 0x20 8,
            inBufs := [i], outBufs := [o], digests := [] }
        let d := j.2.modPart part fun p => { p with list := p.list ++ [e] }
        (d.modFn s.fn fun y => { y with preCnt := bump 0 1 y.preCnt }).passReads x
    | _, _, _, _ => d

/-! ### Meanings -/

/-- ROUTE_BIND (R124). -/
def execRouteBind (fn route tag : Nat) (s : State) : Host.Outcome State Fault Refusal :=
  always s fun d => d.access fn .rest fun d => d.routeOp fn 1 (route % 2 ^ 16) (tag % 256)

/-- ROUTE_UNBIND (R124). -/
def execRouteUnbind (fn route tag : Nat) (s : State) : Host.Outcome State Fault Refusal :=
  always s fun d => d.access fn .rest fun d => d.routeOp fn 2 (route % 2 ^ 16) (tag % 256)

/-- PSC_PASS_START (R132). -/
def execPscPassStart (unit : Nat) (s : State) : Host.Outcome State Fault Refusal :=
  whenDue "PSC_PASS_START" (duePassStart unit s.dev) s fun d => d.passStart unit

/-- PSC_PASS_COMMIT (R131, R133). -/
def execPscPassCommit (unit : Nat) (s : State) : Host.Outcome State Fault Refusal :=
  whenDue "PSC_PASS_COMMIT" (duePassCommit unit s.dev) s fun d => d.passCommit unit

end Sys2Proof.Machine
end

