-- ==== Sys2Proof/Machine/Venc.lean ====
section
/-! DEFINITION. Redacted encoding: clips, masks, the rate controller and the receiver-buffer model, evidence output
(R97 to R122), and the ends that clips meet at CLOSE and in draining (R67, R468). -/

namespace Sys2Proof.Machine

/-! ### Encode contexts (R101, R102) -/

def Clip.codec (c : Clip) : Nat := at_ c.cfg 0 1
def Clip.cbr (c : Clip) : Bool := at_ c.cfg 1 1 == 0
def Clip.qpMin (c : Clip) : Nat := at_ c.cfg 2 1
def Clip.qpMax (c : Clip) : Nat := at_ c.cfg 3 1
def Clip.qpInit (c : Clip) : Nat := at_ c.cfg 4 1
def Clip.buffer (c : Clip) : Nat := at_ c.cfg 0x10 4
def Clip.intraPeriod (c : Clip) : Nat := at_ c.cfg 0x1C 2
def Clip.evQueue (c : Clip) : Nat := at_ c.cfg 0x2C 4 % 2 ^ 20

/-- RATE_BPS in CBR, MAX_RATE_BPS in VBR. -/
def ctxRate (e : List Byte) : Nat := if at_ e 1 1 = 0 then at_ e 8 4 else at_ e 0xC 4
/-- I_avg of R102. -/
def ctxAvg (e : List Byte) : Nat := at_ e 8 4 * at_ e 0x1A 2 / at_ e 0x18 2
/-- I_max of R102. -/
def ctxMax (e : List Byte) : Nat := ctxRate e * at_ e 0x1A 2 / at_ e 0x18 2

/-- CTBs of a picture (R97). -/
def ctbCols (w : Nat) : Nat := ceilDiv w 64
def ctbRows (h : Nat) : Nat := ceilDiv h 64

/-- P_min of R102. -/
def pMin (w h : Nat) : Nat := 4096 + 48 * (ctbCols w * ctbRows h)

/-- Every field of an entry lies in its range (R101). -/
def ctxFieldsOk (e : List Byte) : Bool :=
  let g := fun o n => at_ e o n
  g 0 1 ≤ 3 && g 1 1 ≤ 1 && g 2 1 ≤ 51 && g 2 1 ≤ g 3 1 && g 3 1 ≤ 51 && g 2 1 ≤ g 4 1 && g 4 1 ≤ g 3 1 && g 5 1 ≤ 3 &&
  g 6 1 ≤ 50 && g 7 1 ≤ 30 && 1 ≤ g 0x18 2 && g 0x18 2 ≤ 240 && 1 ≤ g 0x1A 2 && g 0x1A 2 ≤ 1001 && 1 ≤ g 0x1C 2 &&
  g 0x1C 2 ≤ 1024 && g 0x1E 2 == 0 && g 0x28 4 < 2 ^ 30 && g 0x2C 4 < 2 ^ 20

/-- A level's limits: its code, luma samples of a picture, its greatest width and height, luma samples a second, bits of the
buffer and of a second at the peak rate. -/
structure Level where
  code : Nat
  area : Nat
  w : Nat
  h : Nat
  rate : Nat
  bits : Nat

/-- HEVC levels 1 to 6.2, Main tier with the NAL HRD's factor of 1,100. PRESUMED from the standard (log 18). -/
def hevcLevels : List Level :=
  [(30, 36864, 543, 552960, 350), (60, 122880, 991, 3686400, 1500), (63, 245760, 1402, 7372800, 3000),
   (90, 552960, 2103, 16588800, 6000), (93, 983040, 2804, 33177600, 10000), (120, 2228224, 4222, 66846720, 12000),
   (123, 2228224, 4222, 133693440, 20000), (150, 8912896, 8444, 267386880, 25000), (153, 8912896, 8444, 534773760, 40000),
   (156, 8912896, 8444, 1069547520, 60000), (180, 35651584, 16888, 1069547520, 60000),
   (183, 35651584, 16888, 2139095040, 120000), (186, 35651584, 16888, 4278190080, 240000)].map
    fun l => { code := l.1, area := l.2.1, w := l.2.2.1, h := l.2.2.1, rate := l.2.2.2.1, bits := l.2.2.2.2 * 1100 }

/-- AV1 levels 2.0 to 6.3, Main tier, by seq_level_idx. PRESUMED from the standard (log 18). -/
def av1Levels : List Level :=
  [(0, 147456, 2048, 1152, 4423680, 1500), (1, 278784, 2816, 1584, 8363520, 3000), (4, 665856, 4352, 2448, 19975680, 6000),
   (5, 1065024, 5504, 3096, 31950720, 10000), (8, 2359296, 6144, 3456, 70778880, 12000),
   (9, 2359296, 6144, 3456, 141557760, 20000), (12, 8912896, 8192, 4352, 267386880, 30000),
   (13, 8912896, 8192, 4352, 534773760, 40000), (14, 8912896, 8192, 4352, 1069547520, 60000),
   (16, 35651584, 16384, 8704, 1069547520, 60000), (17, 35651584, 16384, 8704, 2139095040, 100000),
   (18, 35651584, 16384, 8704, 4278190080, 160000)].map
    fun l => { code := l.1, area := l.2.1, w := l.2.2.1, h := l.2.2.2.1, rate := l.2.2.2.2.1, bits := l.2.2.2.2.2 * 1000 }

/-- A level admits a picture size with a context's rate and buffer (R98). -/
def Level.admits (l : Level) (e : List Byte) (w h : Nat) : Bool :=
  w * h ≤ l.area && w ≤ l.w && h ≤ l.h && w * h * at_ e 0x18 2 ≤ l.rate * at_ e 0x1A 2 && at_ e 0x10 4 ≤ l.bits &&
  ctxRate e ≤ l.bits

/-- The lowest level that admits a picture size (R98). -/
def levelOf (e : List Byte) (w h : Nat) : Option Level :=
  (if at_ e 0 1 ≤ 1 then hevcLevels else av1Levels).find? fun l => l.admits e w h

/-- The conditions of R102 beyond the fields' ranges. -/
def ctxRatesOk (e : List Byte) (w h : Nat) : Bool :=
  (at_ e 1 1 == 0 || decide (at_ e 8 4 ≤ at_ e 0xC 4)) && decide (pMin w h ≤ ctxAvg e) &&
  decide (2 * ctxMax e ≤ at_ e 0x10 4) && decide (pMin w h ≤ at_ e 0x14 4) && decide (at_ e 0x14 4 ≤ at_ e 0x10 4) &&
  (levelOf e w h).isSome

/-- Source depth a CODEC codes (R97): 8-bit streams for CODEC 0 and 2. -/
def codecDepth (e : List Byte) : Nat := if at_ e 0 1 % 2 = 0 then 8 else 10

/-! ### START and STOP (R103, R104, R120, R121) -/

/-- A clip command ends (R121). -/
def Dev.clipEnds (d : Dev) (f r tag res : Nat) : Dev :=
  d.modFn f fun x => { x with clipSts := { x.clipSts with result := res, tag := tag, a := r } }

/-- The open clip of a route. -/
def Dev.openClip (d : Dev) (r : Nat) : Option Clip := d.video.clips.find? fun c => c.route == r && c.ended.isNone

/-- Open clips of an engine. -/
def Video.clipsOn (v : Video) (e : Nat) : List Clip := v.clips.filter fun c => c.engine == e && c.ended.isNone

/-- Sum of fractions as numerator and denominator. -/
def addFrac (a b : Nat × Nat) : Nat × Nat := (a.1 * b.2 + b.1 * a.2, a.2 * b.2)

/-- Pixels a second of a clip of a stream's maximums (R104). -/
def pixRate (e : List Byte) (w h : Nat) : Nat × Nat := (w * h * at_ e 0x18 2, at_ e 0x1A 2)

/-- The pixel rate of a clip, by its stream. -/
def Dev.clipRate (d : Dev) (c : Clip) : Nat × Nat :=
  match d.stream? c.stream with
  | some s => pixRate c.cfg s.maxW s.maxH
  | none => (0, 1)

/-- An engine has room for another clip: fewer than 32, and at most 1.872 Gpix/s in all (R104). -/
def Dev.engineRoom (d : Dev) (eng : Nat) (e : List Byte) (s : Stream) : Bool :=
  let on_ := d.video.clipsOn eng
  let t := on_.foldl (fun a c => addFrac a (d.clipRate c)) (pixRate e s.maxW s.maxH)
  decide (on_.length < 32) && decide (t.1 ≤ 1872000000 * t.2)

/-- ENCODE blocks of a reconstructed picture: 4:2:0 at the stream's maximum size and the coded depth (R117, log 19). -/
def reconBlocks (e : List Byte) (s : Stream) : Nat :=
  ceilDiv (s.maxW * s.maxH * 3 / 2 * sampleBytes (codecDepth e)) 65536

/-- Bytes of a clip's staging area (R117). -/
def stagingBytes (e : List Byte) : Nat := 2 * ceilDiv (at_ e 0x10 4) 8

/-- The device with a clip changed. -/
def Dev.modClip (d : Dev) (id : Nat) (g : Clip → Clip) : Dev :=
  d.modVideo fun v => { v with clips := modIf (·.id == id) g v.clips }

def Dev.clip? (d : Dev) (id : Nat) : Option Clip := d.video.clips.find? (·.id == id)

/-- A picture is coded as a masked picture: it delivers, in a size the engines code; one that is smaller repeats (R97, R105,
DESIGN CHOICE, log 59). -/
def Pic.codes (p : Pic) : Bool := p.delivers && decide (64 ≤ p.width) && decide (64 ≤ p.height)

/-- The picture is coded from samples: its buffer is held (R105). -/
def Dev.codable (d : Dev) (s : Stream) (p : Pic) : Bool := p.codes && d.holdsBuf s p

/-- A picture that has become ready joins the clip, which counts as a reader of its buffer from now on (R77, R104). A clip
never begins with a repeat, and a picture whose buffer is gone is left out (R105, R118). -/
def Dev.clipTake (d : Dev) (s : Stream) (c : Clip) (p : Pic) : Dev :=
  if !p.number.any c.wants then d
  else if d.codable s p then
    let d := d.modClip c.id fun c => { c with queue := c.queue ++ [(p.serial, d.ticks)] }
    d.addReader s.cls (p.buf.getD 0)
  else if !p.codes && (c.n != 0 || !c.queue.isEmpty || c.coding.isSome) then
    d.modClip c.id fun c => { c with queue := c.queue ++ [(p.serial, d.ticks)] }
  else d

/-- A picture that has gone forward and whose mask list is committed is ready for the clip (R104). -/
def Pic.clipReady (p : Pic) : Bool := p.number.isSome && p.phase == .gone && !p.maskDue

/-- The evidence pair of a clip is enabled (R444). -/
def Dev.evPairOk (d : Dev) (f q : Nat) : Bool :=
  match d.queue? q with
  | some x => x.fn == f && x.st == .enabled && x.type == 3 && d.enabledCq f x.partner
  | none => false

/-- Pictures of a stream in number order, from a number on, that have gone forward. -/
def insertNum (p : Pic) : List Pic → List Pic
  | [] => [p]
  | q :: qs => if seqNewer 32 (q.number.getD 0) (p.number.getD 0) then p :: q :: qs else q :: insertNum p qs

def Stream.forwardFrom (s : Stream) (n : Nat) : List Pic :=
  (s.pics.filter fun p => p.phase == .gone && p.number.any fun k => !seqNewer 32 n k).foldl (fun l p => insertNum p l) []

/-- START (R102 to R105, R117, R355). -/
def Dev.clipStart (d : Dev) (f r pic tag : Nat) : Dev :=
  if !d.sealed then d.clipEnds f r tag 4
  else if !d.ownsRoute f r then d.clipEnds f r tag 3
  else
    match d.route? r, d.video.streams.find? fun s => s.slots.any fun q => q.2 == r with
    | none, _ => d.clipEnds f r tag 4
    | some x, st =>
      if !x.redact then d.clipEnds f r tag 1
      else
        match st with
        | none => d.clipEnds f r tag 4
        | some s =>
          let ix := at_ x.desc 8 2
          let off := (d.fn f).vencBase + 64 * ix
          let e := d.commonRead f off 64
          if (d.openClip r).isSome then d.clipEnds f r tag 4
          else if !inSpan (d.commonGrant f).2 off 64 || !ctxFieldsOk e || !ctxRatesOk e s.maxW s.maxH ||
              !d.evPairOk f (at_ e 0x2C 4 % 2 ^ 20) || decide (codecDepth e < s.maxDepth) then d.clipEnds f r tag 1
          else
            let eng := if (d.video.clipsOn 1).length < (d.video.clipsOn 0).length then 1 else 0
            let rec_ := reconBlocks e s
            let blocks := rec_ + ceilDiv (stagingBytes e) 65536
            let id := d.video.clipSeq
            let room := match d.depot? encodeDepot with
              | some y => y.canReserve blocks && !y.h2 && !y.rebuild
              | none => false
            if !d.engineRoom eng e s || !room then d.clipEnds f r tag 2
            else
              let held := s.forwardFrom pic
              let first := (held.find? (d.codable s)).bind (·.number) |>.getD s.nextPicture
              let c : Clip :=
                { id := id, route := r, fn := f, stream := s.id, engine := eng, cfg := e, ctxIx := ix, startAt := first,
                  stopAt := none, ended := none, queue := [], coding := none, n := 0, sinceIntra := 0,
                  fullness := at_ e 0x14 4, lastQp := [none, none], prevBits := [0, 0], size := (0, 0),
                  counts := [0, 0, 0, 0], staging := [], out := none, recon := rec_, refPic := ([], []), endDue := none }
              let d := d.reserve encodeDepot id blocks
              let d := match d.allocN encodeDepot id rec_ with
                | some r => r.2
                | none => d
              let d := d.modVideo fun v => { v with clips := v.clips ++ [c], clipSeq := id + 1 }
              let d := (held.filter Pic.clipReady).foldl (fun d p =>
                match d.clip? id with
                | some c => d.clipTake s c p
                | none => d) d
              let d := d.commonWrite f (off + 0x30) (zeros 16)
              (d.clipEnds f r tag 0).modFn f fun x => { x with clipSts := { x.clipSts with b := eng } }

/-! ### Evidence output (R115 to R117) -/

/-- Bytes that wait in a clip's staging. -/
def Clip.staged (c : Clip) : Nat := sum (c.staging.map fun e => e.1.length)

/-- A clip's ENCODE blocks are brought to what it holds: its reconstruction and what is staged (R391). -/
def Dev.fitBlocks (d : Dev) (id : Nat) : Dev :=
  match d.clip? id, d.depot? encodeDepot with
  | some c, some x =>
    let want := c.recon + ceilDiv c.staged 65536
    let have_ := x.holds id
    if have_ < want then
      match d.allocN encodeDepot id (want - have_) with
      | some r => r.2
      | none => d
    else
      ((x.held.filter fun h => h.2 == id).drop want).foldl (fun d h => d.freeBuf encodeDepot h.1) d
  | _, _ => d

/-- A clip whose coding has ended and whose staging is empty goes, with its blocks (R391). -/
def Dev.dropClip (d : Dev) (id : Nat) : Dev :=
  match d.clip? id with
  | some c =>
    if c.ended.isSome && c.staging.isEmpty && c.coding.isNone && c.queue.isEmpty then
      (d.modVideo fun v => { v with clips := v.clips.filter fun c => c.id != id }).freeOwner encodeDepot id
    else d
  | none => d

/-- An evidence record with its buffer filled in (R116). -/
def evRecord (r : List Byte) (seq off : Nat) : List Byte := r.take 0x1C ++ le 4 seq ++ le 4 off ++ r.drop 0x24

/-- Staged pictures go out in order while the current buffer holds them; end-only records need no buffer (R115). -/
def Dev.flushClip (id : Nat) : Nat → Dev → Dev
  | 0, d => d
  | fuel + 1, d =>
    match d.clip? id with
    | none => d
    | some c =>
      let cq := ((d.queue? c.evQueue).map (·.partner)).getD 0
      match c.staging with
      | [] => d
      | e :: rest =>
        if e.1.isEmpty then
          flushClip id fuel ((d.owe c.fn cq e.2 none).modClip id fun c => { c with staging := rest })
        else
          match c.out with
          | some (a, len, used, seq) =>
            if d.mayRequest c.fn && used + e.1.length ≤ len then
              let d := (d.post c.fn (a + used) e.1).owe c.fn cq (evRecord e.2 seq used) none
              flushClip id fuel (d.modClip id fun c =>
                { c with staging := rest, out := some (a, len, used + e.1.length, seq) })
            else d
          | none => d

/-- Staged output is written as far as it can be, and what it held is freed. -/
def Dev.pushClip (d : Dev) (id : Nat) : Dev :=
  let n := ((d.clip? id).map (·.staging.length)).getD 0
  (Dev.flushClip id n d |>.fitBlocks id).dropClip id

/-- An end-only record (R103, R117): BYTES 0, CLIP_END; CLIP_INDEX and FULLNESS are those of the picture that is not coded, and
counts of what was coded are 0. Its buffer, QPs, input status and timestamp have no picture to come from: `v` gives them
(log 20). -/
def endOnly (c : Clip) (pic reason : Nat) (v : Nat × Nat × Nat) : List Byte :=
  recHead 3 0 0 0 0 c.route c.stream ++ le 4 pic ++ le 4 c.n ++ le 4 0 ++ le 8 v.1 ++ le 4 c.fullness ++ le 4 0 ++
  le 4 0xFFFFFFFF ++ le 2 v.2.1 ++ le 2 0 ++ [0, 32] ++ le 1 reason ++ le 1 (v.2.1 / 2 ^ 16) ++ le 8 v.2.2 ++ zeros 64

/-- A clip ends before a further picture, with an end-only record behind its staged pictures. Where no rule names the
record's PICTURE it is a free value (log 20). -/
def Dev.endClip (d : Dev) (id reason : Nat) (pic : Option Nat) : Dev :=
  match d.clip? id with
  | none => d
  | some _ =>
    let r1 := drawFree d
    let r2 := drawFree r1.2
    let r3 := drawFree r2.2
    let r := match pic with
      | some n => (n, r3.2)
      | none => ((drawFree r3.2).1 % 2 ^ 32, (drawFree r3.2).2)
    (r.2.modClip id fun c => { c with
      ended := some reason
      staging := c.staging ++ [([], endOnly c r.1 reason (r1.1, r2.1, r3.1))] }).pushClip id

/-- Pictures in a clip's queue lose their readers and leave it. -/
def Dev.emptyQueue (d : Dev) (c : Clip) (gone : List Nat) : Dev :=
  let d := d.modClip c.id fun c => { c with queue := c.queue.filter fun q => !gone.contains q.1 }
  gone.foldl (fun d k =>
    match d.stream? c.stream, d.pic? c.stream k with
    | some s, some p =>
      match p.codes, p.buf with
      | true, some b => d.dropReader s.cls b s.id
      | _, _ => d.tidy s.id
    | _, _ => d) d

/-- STOP (R103). -/
def Dev.clipStop (d : Dev) (f r pic tag : Nat) : Dev :=
  if !d.ownsRoute f r then d.clipEnds f r tag 3
  else
    match d.openClip r with
    | none => d.clipEnds f r tag 4
    | some c =>
      match d.stream? c.stream with
      | none => d.clipEnds f r tag 4
      | some s =>
        -- the newest picture at or before E that has gone forward
        let last := (s.nextPicture + 2 ^ 32 - 1) % 2 ^ 32
        let l := if seqNewer 32 last pic then pic else last
        let none_ := s.nextPicture == 0 && !s.pics.any (fun p => p.number.isSome) || seqNewer 32 c.startAt l
        let d := d.clipEnds f r tag 0
        if none_ then
          let d := d.emptyQueue c (c.queue.map (·.1))
          if c.coding.isSome then d.modClip c.id fun c => { c with stopAt := some l, endDue := some pic }
          else d.endClip c.id 1 (some pic)
        else
          let late := c.queue.filter fun q => ((s.pic? q.1).bind (·.number)).any fun n => seqNewer 32 n l
          let d := d.emptyQueue c (late.map (·.1))
          let d := d.modClip c.id fun c => { c with stopAt := some l }
          let more := (c.queue.length != late.length) || c.coding.isSome ||
            s.pics.any fun p => p.maskDue && p.number.any fun n => !seqNewer 32 n l && !seqNewer 32 c.startAt n
          if more then d else d.endClip c.id 1 (some pic)

/-- VENC_CLIP_CMD by its OP (R120). -/
def Dev.clipOp (d : Dev) (f op r pic tag : Nat) : Dev :=
  d.takeCmd f .clip 50 fun d => match op with
  | 1 => d.clipStart f r pic tag
  | 2 => d.clipStop f r pic tag
  | _ => d.clipEnds f r tag 1

/-- The pictures a clip waits for are all coded, and none is to come: STOP named its last, or its stream closes. -/
def Dev.clipSpent (d : Dev) (c : Clip) : Option Nat :=
  if !c.queue.isEmpty || c.endDue.isSome then none
  else
    match d.stream? c.stream with
    | none => some 3
    | some s =>
      if s.pics.any fun p => p.maskDue && p.number.any c.wants then none
      else if c.stopAt.isSome then some 1
      else if s.closing && s.pics.all (·.phase == .gone) then some 3
      else none

/-- The mask list of a picture is committed: it is ready for its clip (R104, R106). -/
def Dev.maskCommitted (d : Dev) (n k : Nat) : Dev :=
  let d := d.modPic n k fun p => { p with maskDue := false }
  match d.stream? n, d.pic? n k with
  | some s, some p =>
    match d.video.clips.find? fun c => c.stream == n && c.ended.isNone with
    | some c =>
      let d := d.clipTake s c p
      match d.clip? c.id with
      | some c => if c.stopAt.isSome && c.coding.isNone && d.clipSpent c == some 1 then d.endClip c.id 1 none else d
      | none => d
    | none => d
  | _, _ => d

/-! ### Masks (R108) -/

/-- A sample point lies in a mask list's boxes. -/
def inMasks (ms : List (Nat × Nat × Nat × Nat × Nat × Nat)) (x y : Nat) : Bool :=
  ms.any fun m => m.1 ≤ x && x < m.2.2.1 && m.2.1 ≤ y && y < m.2.2.2.1

/-- The boxes of a picture's mask: the whole picture where MASK_FULL is set (R107). -/
def Pic.union (p : Pic) : List (Nat × Nat × Nat × Nat × Nat × Nat) :=
  if p.maskFull then [(0, 0, p.width, p.height, 0, 0)] else p.masks

/-- The mean of a block's samples inside the picture, rounded (R108). -/
def blockMean (w h bx by_ size : Nat) (rd : Nat → Nat → Nat) : Nat :=
  let pts := (upTo size).flatMap fun j => (upTo size).filterMap fun i =>
    if bx + i < w ∧ by_ + j < h then some (rd (bx + i) (by_ + j)) else none
  let n := pts.length
  if n = 0 then 0 else (sum pts + n / 2) / n

/-- The block of size P at luma position (bx, by) meets the mask. -/
def blockHit (ms : List (Nat × Nat × Nat × Nat × Nat × Nat)) (bx by_ size : Nat) : Bool :=
  ms.any fun m =>
    m.1 < m.2.2.1 && m.2.1 < m.2.2.2.1 && overlaps bx (bx + size) m.1 m.2.2.1 && overlaps by_ (by_ + size) m.2.1 m.2.2.2.1

/-- The masked luma sample (R108). -/
def maskLuma (style solid depth w h : Nat) (ms : List (Nat × Nat × Nat × Nat × Nat × Nat)) (rd : Nat → Nat → Nat)
    (x y : Nat) : Nat :=
  if style = 0 then if inMasks ms x y then (if depth ≤ 8 then solid / 4 else solid) else rd x y
  else
    let size := 4 * 2 ^ style
    let bx := x / size * size
    let by_ := y / size * size
    if blockHit ms bx by_ size then blockMean w h bx by_ size rd else rd x y

/-- The masked chroma sample of one plane (R108). -/
def maskChroma (style solid depth w h : Nat) (ms : List (Nat × Nat × Nat × Nat × Nat × Nat)) (rd : Nat → Nat → Nat)
    (x y : Nat) : Nat :=
  if style = 0 then
    let hit := (upTo 2).all fun j => (upTo 2).all fun i =>
      decide (w ≤ 2 * x + i) || decide (h ≤ 2 * y + j) || inMasks ms (2 * x + i) (2 * y + j)
    if hit then (if depth ≤ 8 then solid / 4 else solid) else rd x y
  else
    let size := 4 * 2 ^ style
    let half := size / 2
    let bx := x / half * half
    let by_ := y / half * half
    if blockHit ms (2 * bx) (2 * by_) size then blockMean ((w + 1) / 2) ((h + 1) / 2) bx by_ half rd else rd x y

/-- The engine's masked copy of a picture at the coded depth: luma rows and chroma rows (R97, R108). -/
def Dev.maskedCopy (d : Dev) (c : Clip) (q : PicSrc) (p : Pic) : List (List Nat) × List (List Nat) :=
  let style := at_ c.cfg 5 1
  let sol := at_ c.cfg 0x28 4
  let ms := p.union
  let up := fun (v : Nat) => reDepth q.depth (codecDepth c.cfg) v
  let luma := (upTo p.height).map fun y => (upTo p.width).map fun x =>
    up (maskLuma style (bits sol 0 10) q.depth p.width p.height ms (d.lumaAt q) x y)
  let chroma := (upTo ((p.height + 1) / 2)).map fun y => (upTo ((p.width + 1) / 2)).flatMap fun x =>
    (upTo 2).map fun k =>
      up (maskChroma style (bits sol (10 + 10 * k) 10) q.depth p.width p.height ms (d.chromaAt q k) x y)
  (luma, chroma)

/-! ### Engines (R104) -/

/-- The earliest ready picture of an engine's clips; ties go to the lower route (R104). -/
def earliestReady : List Clip → Option (Clip × Nat × Nat)
  | [] => none
  | c :: cs =>
    match earliestReady cs, c.queue with
    | r, [] => r
    | none, (k, t) :: _ => some (c, k, t)
    | some r, (k, t) :: _ => if t < r.2.2 ∨ (t = r.2.2 ∧ c.route ≤ r.1.route) then some (c, k, t) else some r

/-- ENCODE_START is due (R104, R475). -/
def dueEncodeStart (e : Nat) (d : Dev) : Bool :=
  d.mainUp && d.clk.refPresent && !d.clk.vssStopped &&
  ((d.video.venc[e]?).any fun x => x.job.isNone) && (earliestReady (d.video.clipsOn e)).isSome

/-- An engine takes the oldest ready picture of its clips, masked on its own copy (R104, R108). -/
def Dev.encodeStart (d : Dev) (e : Nat) : Dev :=
  match earliestReady (d.video.clipsOn e) with
  | none => d
  | some (c, k, _) =>
    let copy := match d.stream? c.stream, d.pic? c.stream k with
      | some s, some p => if p.codes then ((d.picSrc s p).map fun q => d.maskedCopy c q p).getD ([], []) else ([], [])
      | _, _ => ([], [])
    let d := d.modClip c.id fun c => { c with queue := c.queue.drop 1, coding := some k }
    d.modVideo fun v => { v with venc := modAt (fun x => { x with
      job := some (c.id, k), lastRoute := c.route, startTick := d.run, luma := copy.1, chroma := copy.2 }) e v.venc }

/-! ### Rate control (R109, R111 to R114) -/

/-- What the controller has done so far in a picture. -/
structure RcState where
  used : Nat
  qp : Nat
  done : List (Option Nat)  -- the quantiser of each CTB so far, none in the cheapest mode
  clipped : Option Nat      -- first CTB in the cheapest mode
  lastQp : Option Nat       -- of the last normally coded row
  overRows : Nat            -- rows coded above QP_MAX
  deriving DecidableEq, Repr

/-- The quantiser of a QP: HEVC's own, AV1's qindex (R101). -/
def quantiser (codec qp : Nat) : Nat := if codec ≤ 1 then qp else min 255 (5 * qp)

/-- step of R111. -/
def rcStep (p : Nat) (t : Int) : Int :=
  if 2 * t < p then 2 else if 5 * t < 4 * p then 1 else if (2 * p : Int) < t then -2 else if (5 * p : Int) < 4 * t then -1 else 0

/-- A_n of R109. -/
def arrival (r num den n : Nat) : Nat := (n + 1) * r * den / num - n * r * den / num

/-- The target t of a picture (R111). -/
def rcTarget (c : Clip) (intra : Bool) (a reserve : Nat) : Int :=
  let avg : Int := ctxAvg c.cfg
  let g : Int := c.intraPeriod
  let t := (if intra then 4 * avg * g else avg * g) / (g + 3)
  let t := t + ((c.fullness : Int) - (c.buffer / 2 : Nat)) / 32
  let lo : Int := if c.cbr then max 0 ((c.fullness : Int) + a - c.buffer) else 0
  clampI lo ((c.fullness : Int) - reserve) t

/-- A CTB coded in the cheapest mode, within the bound `u` (R112). -/
def RcState.cheap (s : RcState) (i : CodeIn) (u : Nat) : RcState :=
  { s with used := s.used + min u (Config.cheapBits i s.done), done := s.done ++ [none] }

/-- The CTBs of a row at one QP; a CTB that would break the reserve, and every CTB after it, takes the cheapest mode
(R113). `after` counts the CTBs from this one to the end; the flag says that one was coded normally. -/
def codeRow (i : CodeIn) (u d qp : Nat) : Nat → Nat → RcState → Bool → RcState × Bool
  | 0, _, s, n => (s, n)
  | m + 1, after, s, n =>
    let q := quantiser (at_ i.cfg 0 1) qp
    let normal := Config.ctbBits i s.done q
    if i.repeats || s.clipped.isSome then codeRow i u d qp m (after - 1) (s.cheap i u) n
    else if d < s.used + normal + u * (after - 1) then
      codeRow i u d qp m (after - 1) { s.cheap i u with clipped := some after } n
    else codeRow i u d qp m (after - 1) { s with used := s.used + normal, done := s.done ++ [some q] } true

/-- The rows of a picture: `k` is the row, `after` the CTBs from its first to the end (R111, R113). -/
def codeRows (c : Clip) (i : CodeIn) (u rows cols : Nat) (t : Int) : Nat → Nat → Nat → RcState → RcState
  | 0, _, _, s => s
  | m + 1, k, after, s =>
    let r := codeRow i u c.fullness s.qp cols after s false
    let s1 := r.1
    let s1 := if r.2 then { s1 with lastQp := some s.qp, overRows := s1.overRows + b2n (decide (c.qpMax < s.qp)) } else s1
    let proj := s1.used * rows / (k + 1)
    let norm : Int := (s.qp : Int) + (if 9 * t < (8 * proj : Nat) then 1 else if ((8 * proj : Nat) : Int) < 7 * t then -1 else 0)
    let norm := clampI c.qpMin c.qpMax norm
    let reserve := u * (after - cols)
    let qp : Int := if (c.fullness : Int) - reserve < proj then min 51 (max norm (s.qp + 1)) else norm
    codeRows c i u rows cols t m (k + 1) (after - cols) { s1 with qp := qp.toNat }

/-- What the controller makes of a picture. -/
structure Coded where
  used : Nat
  done : List (Option Nat)
  qpFirst : Nat
  qpLast : Nat
  overRows : Nat
  firstClipped : Option Nat
  normalQp : Option Nat
  deriving DecidableEq, Repr

/-- A picture coded under R111 to R113. -/
def codePicture (c : Clip) (i : CodeIn) : Coded :=
  let cols := ctbCols i.w
  let rows := ctbRows i.h
  let u := if i.intra then 48 else 8
  let head := min 4096 (Config.headBits i)
  let a := arrival (ctxRate c.cfg) (at_ c.cfg 0x18 2) (at_ c.cfg 0x1A 2) c.n
  let t := rcTarget c i.intra a (head + u * (cols * rows))
  let ty := if i.intra then 0 else 1
  let last : Option Nat := (c.lastQp[ty]?).getD none
  let qp0 : Int := match last with
    | none => Int.ofNat c.qpInit
    | some q => Int.ofNat q + rcStep ((c.prevBits[ty]?).getD 0) t
  let qp : Nat := (clampI c.qpMin c.qpMax qp0).toNat
  let s := codeRows c i u rows cols t rows 0 (cols * rows)
    { used := head, qp := qp, done := [], clipped := none, lastQp := none, overRows := 0 }
  { used := s.used, done := s.done, qpFirst := qp, qpLast := s.lastQp.getD 0, overRows := s.overRows,
    firstClipped := s.clipped.map fun after => cols * rows - after, normalQp := s.lastQp }

/-- The fullness before the next picture, from the bits of this one (R109). -/
def Clip.nextFull (c : Clip) (s : Nat) : Int :=
  (c.fullness : Int) - s + arrival (ctxRate c.cfg) (at_ c.cfg 0x18 2) (at_ c.cfg 0x1A 2) c.n

/-- How a picture of a clip is coded: a repeat, a new sequence, intra (R98, R105). -/
structure CodeMode where
  repeats : Bool
  newSeq : Bool
  intra : Bool
  w : Nat
  h : Nat
  deriving DecidableEq, Repr

def Clip.mode (c : Clip) (p : Pic) : CodeMode :=
  if !p.codes then { repeats := true, newSeq := false, intra := false, w := c.size.1, h := c.size.2 }
  else
    let fresh := c.n != 0 && (p.width, p.height) != c.size
    { repeats := false, newSeq := fresh, intra := c.n == 0 || fresh || decide (c.intraPeriod ≤ c.sinceIntra),
      w := p.width, h := p.height }

/-- The picture on an engine with its clip. -/
def Dev.inCoding (d : Dev) (e : Nat) : Option (Clip × Stream × Pic) :=
  match (d.video.venc[e]?).bind (·.job) with
  | some (id, k) =>
    match d.clip? id with
    | some c =>
      match d.stream? c.stream, d.pic? c.stream k with
      | some s, some p => some (c, s, p)
      | _, _ => none
    | none => none
  | none => none

/-- What the stream signals with a picture (R110): the model with each new sequence, in HEVC the buffering period on every
intra picture and the timing of every picture. -/
def Clip.signals (c : Clip) (m : CodeMode) : List Signal :=
  if c.codec ≤ 1 then
    (if m.intra then [.hrdParameters c.cbr, .bufferingPeriod (c.fullness * 90000 / ctxRate c.cfg)] else []) ++ [.pictureTiming]
  else if m.intra then [.timingInfo true, .decoderModelInfo, .operatingParameters 0] else []

/-- What the coded bits of a clip's picture depend on (R98 to R100). -/
def Clip.codeIn (c : Clip) (p : Pic) (luma chroma : List (List Nat)) : CodeIn :=
  let m := c.mode p
  { cfg := c.cfg, level := ((levelOf c.cfg m.w m.h).map (·.code)).getD 0, intra := m.intra, repeats := m.repeats,
    newSeq := m.newSeq, index := c.n, w := m.w, h := m.h, luma := luma, chroma := chroma
    refPic := if m.intra then none else some c.refPic, signals := c.signals m }

/-- Bytes of the smallest filler unit: a NAL unit of type 38 behind its start code, or a padding OBU (R97; their framing is
PRESUMED, log 60). -/
def leastFiller (codec : Nat) : Nat := if codec ≤ 1 then 6 else 3

/-- Bytes of filler behind a picture of `used` bits: in CBR the smallest unit that keeps the fullness within BUFFER_BITS
(R109). -/
def Clip.fillerBytes (c : Clip) (used : Nat) : Nat :=
  let excess := (c.nextFull used - c.buffer).toNat
  if c.cbr && 0 < excess then max (leastFiller c.codec) (ceilDiv excess 8) else 0

/-- A filler unit of `n` bytes: filler data NAL unit (type 38) in HEVC, padding OBU (type 15) in AV1 (R97). -/
def fillerUnit (codec n : Nat) : List Byte :=
  if n = 0 then []
  else if codec ≤ 1 then [0, 0, 1, 0x4C, 0x01] ++ List.replicate (n - 6) 0xFF ++ [0x80]
  else
    let k := if n ≤ 129 then 1 else 4
    let p := n - 1 - k
    0x7A :: ((upTo k).flatMap fun j => le 1 (p / 2 ^ (7 * j) % 128 + if j + 1 < k then 128 else 0)) ++ 0x80 :: zeros (p - 1)

/-- A coded picture with its filler. -/
def Clip.bytes (c : Clip) (i : CodeIn) (r : Coded) : List Byte :=
  fit (ceilDiv r.used 8) (Config.codedBytes i r.done) ++ fillerUnit c.codec (c.fillerBytes r.used)

/-- ENCODE_COMPLETE is due for the picture on the engine: an engine codes up to 2 pixels per vk (R97). -/
def dueEncodeComplete (e k : Nat) (d : Dev) : Bool :=
  match d.inCoding e with
  | some (c, _, p) =>
    let m := c.mode p
    let start := ((d.video.venc[e]?).map (·.startTick)).getD 0
    d.mainUp && p.serial == k && decide (start + (if m.repeats then 0 else ceilDiv (m.w * m.h) 2) * vkTicks ≤ d.run)
  | none => false

/-- The evidence record of a coded picture, its buffer fields still 0 (R116). -/
def evidence (c : Clip) (p : Pic) (m : CodeMode) (r : Coded) (len end_ : Nat) : List Byte :=
  let clip := r.firstClipped.isSome
  let codes := if clip then [4] else []
  let flags := b2n m.intra + 2 * b2n m.repeats + 4 * b2n (p.maskFull && !m.repeats) + 8 * b2n (p.maskOverflow && !m.repeats) +
    16 * b2n (c.n == 0) + 32 * b2n (end_ != 0) + 64 * b2n m.newSeq
  recHead 3 (statusOf codes) 0 0 (condMask codes) c.route c.stream ++ le 4 (p.number.getD 0) ++ le 4 c.n ++
  le 4 len ++ zeros 8 ++ le 4 c.fullness ++ le 4 (8 * c.fillerBytes r.used) ++ le 4 (r.firstClipped.getD 0xFFFFFFFF) ++
  le 1 r.qpFirst ++ le 1 r.qpLast ++ le 2 p.masks.length ++ le 1 (min r.overRows 255) ++ le 1 flags ++ le 1 end_ ++
  le 1 (statusOf p.conditions) ++ le 8 p.timestamp ++ zeros 64

/-- CODE_VK of an engine: vk spent so far on its picture, or on its last one (R122). -/
def Dev.codeSoFar (d : Dev) (e : VencEngine) : Nat :=
  if e.job.isSome then (d.run - e.startTick) / vkTicks else e.codeVk

/-- An engine is free of its picture, whose vk it counts (R119, R122). -/
def Dev.vencFreed (d : Dev) (e : VencEngine) : VencEngine :=
  { e with job := none, codeVk := d.codeSoFar e, busyVk := satAdd 64 e.busyVk (d.codeSoFar e), luma := [], chroma := [] }

/-- An engine is released, and the picture it coded loses its reader. -/
def Dev.freeVenc (d : Dev) (e : Nat) (c : Clip) (s : Stream) (p : Pic) : Dev :=
  let d := d.modVideo fun v => { v with venc := modAt d.vencFreed e v.venc }
  let d := d.modClip c.id fun c => { c with coding := none }
  match p.codes, p.buf with
  | true, some b => d.dropReader s.cls b s.id
  | _, _ => d.tidy s.id

/-- Counts of a coded picture: the context's words, the function's counters, the policy overrides (R101, R114). -/
def Dev.countCoded (d : Dev) (c : Clip) (clip : Bool) (rows : Nat) : Dev :=
  let k := match c.counts with
    | [a, b, q, _] => [satAdd 32 a 1, satAdd 32 b (b2n clip), satAdd 32 q rows, c.fullness]
    | l => l
  let d := d.modClip c.id fun c => { c with counts := k }
  let d := d.commonWrite c.fn ((d.fn c.fn).vencBase + 64 * c.ctxIx + 0x30) (k.flatMap (le 4))
  let d := d.modFn c.fn fun x => { x with vencCnt := bump 2 rows (bump 1 (b2n clip) (bump 0 1 x.vencCnt)) }
  { d with clk := { d.clk with ovrHrd := satAdd 64 d.clk.ovrHrd (rows + b2n clip) } }

/-- A clip ends before the picture on its engine, which staging cannot hold (R117). -/
def Dev.stallClip (d : Dev) (c : Clip) : Dev :=
  let d := d.emptyQueue c (c.queue.map (·.1))
  (d.modFn c.fn fun x => { x with vencCnt := bump 3 1 x.vencCnt }).endClip c.id 2 none

/-- An engine finishes coding a picture (R105, R109 to R117). The QP of the last normally coded row of a picture that has none is
a free value (log 24). -/
def Dev.encodeDone (d : Dev) (e : Nat) : Dev :=
  match d.inCoding e with
  | none => d
  | some (c, s, p) =>
    let m := c.mode p
    let copy := ((d.video.venc[e]?).map fun x => (x.luma, x.chroma)).getD ([], [])
    let i := c.codeIn p copy.1 copy.2
    let r := codePicture c i
    let bytes := c.bytes i r
    let v := match r.normalQp with
      | some q => (q, d)
      | none => ((drawFree d).1 % 52, (drawFree d).2)
    let r := { r with qpLast := v.1 }
    let d := v.2.freeVenc e c s p
    let direct := c.staging.isEmpty && d.mayRequest c.fn &&
      (match c.out with | some (_, len, used, _) => decide (used + bytes.length ≤ len) | none => false)
    if !direct && stagingBytes c.cfg < c.staged + bytes.length then d.stallClip c
    else
      let end_ := match d.clip? c.id with
        | some c => (d.clipSpent { c with coding := none }).getD 0
        | none => 0
      let rec_ := evidence c p m r bytes.length end_
      let size := r.used + 8 * c.fillerBytes r.used
      let full := c.nextFull size
      let full := if c.cbr then full else min c.buffer full
      let ty := if m.intra then 0 else 1
      let d := d.modClip c.id fun c => { c with
        n := c.n + 1, sinceIntra := if m.intra then 1 else c.sinceIntra + 1, fullness := full.toNat
        size := (m.w, m.h), staging := c.staging ++ [(bytes, rec_)]
        refPic := Config.recon i r.done
        lastQp := if m.repeats then c.lastQp else
          modAt (fun _ => some (clampI c.qpMin c.qpMax (Int.ofNat v.1)).toNat) ty c.lastQp
        prevBits := if m.repeats then c.prevBits else modAt (fun _ => size) ty c.prevBits
        ended := if end_ = 0 then none else some end_ }
      let d := (d.countCoded c r.firstClipped.isSome r.overRows).pushClip c.id
      match c.endDue with
      | some n => d.endClip c.id 1 (some n)
      | none => d

/-! ### Posted evidence buffers (R115) -/

/-- A clip that waits for a buffer of a queue. -/
def Dev.wantsBuffer (d : Dev) (q : Nat) : Option Clip :=
  d.video.clips.find? fun c => c.evQueue == q && (match c.staging with
    | [] => false
    | e :: _ => match c.out with | some (_, len, used, _) => decide (len < used + e.1.length) | none => !e.1.isEmpty)

/-- The device counts one more entry fetched and writes HEAD_ADDR (R447). -/
def Dev.countFetch (d : Dev) (x : Queue) (n : Nat) : Dev :=
  let dev := (x.device + n) % 2 ^ 32
  let d := d.modQueue x.id fun q => { q with device := dev }
  if x.headAddr = 0 then d else d.post x.fn x.headAddr (le 8 dev)

/-- Entries posted and not yet fetched. -/
def Queue.avail (x : Queue) : Nat := (x.driver + 2 ^ 32 - x.device) % 2 ^ 32

/-- EVIDENCE_FLUSH is due: an entry is posted on the EVIDENCE SQ, and a clip waits for a buffer. -/
def dueEvidence (q : Nat) (entry : List Byte) (d : Dev) : Bool :=
  match d.queue? q with
  | some x =>
    d.mainUp && x.st == .enabled && x.type == 3 && 0 < x.avail && entry.length == 64 && d.mayRequest x.fn &&
    (d.wantsBuffer q).isSome
  | none => false

/-- A REFUSAL record for an entry consumed without effect (R449). -/
def Dev.refuseEntry (d : Dev) (x : Queue) (c reason stream : Nat) (entry : List Byte) : Dev :=
  d.owe x.fn x.partner (recHead 5 0x42 0 1 (condBit 0x42) 0xFFFF stream ++ le 4 x.id ++ le 4 c ++ le 1 reason ++ zeros 7 ++
    entry.take 16 ++ zeros 80) none

/-- A posted buffer is taken: a shorter one than the receiver buffer completes unused (R115). -/
def Dev.takeBuffer (d : Dev) (q : Nat) (entry : List Byte) : Dev :=
  match d.queue? q, d.wantsBuffer q with
  | some x, some c =>
    let seq := x.device
    let d := d.countFetch x 1
    let len := at_ entry 8 4
    if (entry.drop 0xC).any (· != 0) then d.refuseEntry x seq 3 0 entry
    else if len < ceilDiv c.buffer 8 then d
    else (d.modClip c.id fun c => { c with out := some (at_ entry 0 8, len, 0, seq) }).pushClip c.id
  | _, _ => d

/-! ### Ends at CLOSE and in draining (R67, R118, R468) -/

/-- The open clips that `p` selects end, each with an end-only record where it has not ended on a picture. -/
def Dev.endClips (d : Dev) (p : Clip → Bool) (reason : Nat) : Dev :=
  (d.video.clips.filter fun c => p c && c.ended.isNone).foldl (fun d c => d.endClip c.id reason none) d

/-- STREAM_CLOSE_COMPLETE is due (R67). -/
def dueClose (n : Nat) (d : Dev) : Bool :=
  match d.stream? n with
  | some s => d.mainUp && s.closing && d.streamSpent s
  | none => false

/-- DRAIN_COMPLETE is due (R468). -/
def dueDrain (d : Dev) : Bool := d.boot == .done && d.lwd.st == .draining && d.drained

/-- Records owed go where they can without waiting: to their queues, or to overflow (R396, R468). -/
def Dev.settleDue : Nat → Dev → Dev
  | 0, d => d
  | n + 1, d =>
    match d.due with
    | [] => d
    | r :: _ => settleDue n (d.recordWrite r.queue)

/-! ### Meanings -/

/-- CLIP_START (R103). -/
def execClipStart (fn route picture tag : Nat) (s : State) : Host.Outcome State Fault Refusal :=
  always s fun d => d.access fn .rest fun d => d.clipOp fn 1 (route % 2 ^ 16) (picture % 2 ^ 32) (tag % 256)

/-- CLIP_STOP (R103). -/
def execClipStop (fn route picture tag : Nat) (s : State) : Host.Outcome State Fault Refusal :=
  always s fun d => d.access fn .rest fun d => d.clipOp fn 2 (route % 2 ^ 16) (picture % 2 ^ 32) (tag % 256)

/-- ENCODE_START (R104). -/
def execEncodeStart (engine : Nat) (s : State) : Host.Outcome State Fault Refusal :=
  whenDue "ENCODE_START" (dueEncodeStart engine s.dev) s fun d => d.encodeStart engine

/-- ENCODE_COMPLETE (R113). -/
def execEncodeComplete (engine serial : Nat) (s : State) : Host.Outcome State Fault Refusal :=
  whenDue "ENCODE_COMPLETE" (dueEncodeComplete engine serial s.dev) s fun d => d.encodeDone engine

/-- EVIDENCE_FLUSH (R115, R117). -/
def execEvidenceFlush (queue : Nat) (entry : List Byte) (s : State) : Host.Outcome State Fault Refusal :=
  whenDue "EVIDENCE_FLUSH" (dueEvidence queue entry s.dev) s fun d => d.takeBuffer queue entry

/-- STREAM_CLOSE_COMPLETE (R67). -/
def execStreamCloseComplete (stream : Nat) (s : State) : Host.Outcome State Fault Refusal :=
  whenDue "STREAM_CLOSE_COMPLETE" (dueClose stream s.dev) s fun d =>
      match d.stream? stream with
      | some x => (d.endClips (fun c => c.stream == stream) 3).streamClosed x
      | none => d

/-- DRAIN_COMPLETE (R468): open clips have ended, the lifetime counters reach the health store (R500), and the main domain is
gated. -/
def execDrainComplete (s : State) : Host.Outcome State Fault Refusal :=
  whenDue "DRAIN_COMPLETE" (dueDrain s.dev) s fun d =>
    let d := d.endClips (fun _ => true) 1
    let d := Dev.settleDue d.due.length d
    (if d.sec.down.contains 2 then d else d.storeWrite).enterLeeward

end Sys2Proof.Machine
end

