-- ==== Sys2Proof/Machine/Tracks.lean ====
section
/-! DEFINITION. The track engine at work: a picture's association, its verdict entries, mask list and records, and the
re-identification step behind it (R284 to R306), and the verdict port (R307 to R319). -/

namespace Sys2Proof.Machine

/-! ### Which picture comes next (R28, R295, R396) -/

/-- Of two pictures the one with the earlier number. -/
def earlierPic (a : Option Pic) (p : Pic) : Option Pic :=
  match a with
  | none => some p
  | some q => if seqNewer 32 (q.number.getD 0) (p.number.getD 0) then some p else some q

/-- The picture of a stream whose record on a route slot comes next. -/
def Stream.nextRecord (s : Stream) (slot : Nat) : Option Pic :=
  (s.pics.filter fun p => p.number.isSome && p.recordsDue.contains slot).foldl earlierPic none

/-- The outcome of a picture on a route slot. -/
def Dev.resultOf (d : Dev) (n slot k : Nat) : Option Result :=
  d.trk.results.find? fun r => r.stream == n && r.slot == slot && r.serial == k

/-- A record of the function waits for a place that neither its queue nor the OVERFLOW depot has (R396). -/
def Dev.recordStuck (d : Dev) (f : Nat) : Bool := d.due.any fun r => r.fn == f && !d.direct r && !d.overflowRoom f

/-- The picture the track engine takes next for a stream's route slot, with its outcome. -/
def Dev.trackerNext (d : Dev) (n slot : Nat) : Option (Stream × Pic × Result) :=
  match d.stream? n with
  | none => none
  | some s =>
    match s.nextRecord slot with
    | none => none
    | some p => (d.resultOf n slot p.serial).map fun r => (s, p, r)


/-! ### Association (R288 to R293) -/

/-- A picture with these codes has no observation (R292). -/
def unobserved (codes : List Nat) : Bool :=
  codes.any fun c => c == 0x05 || c == 0x20 || c == 0x26 || (c / 16 == 1 && c != 0x12)

/-- Track-table entries the sets of a function hold (R284, R317). -/
def Dev.trackUse (d : Dev) (f : Nat) : Nat := sum ((d.trk.sets.filter (·.fn == f)).map (·.tracks.length))

/-- The partition whose tracker depot a detector route's sequences use: that of its REID_ROUTE, or its own where that route
has never been bound. -/
def Dev.reidPart (d : Dev) (desc : List Byte) : Nat :=
  match trkReid (desc.drop 0x60) with
  | some r => if d.video.routes.any (·.id == r) then at_ (d.routeDesc r) 0 1 else at_ desc 0 1
  | none => at_ desc 0 1

/-- TRACKER_PICTURE is due: the outcome is there, the step before it has ended (R295), the result writer has room, and the
depot its step allocates from does not rebuild its free list (R386). -/
def dueTracker (n slot : Nat) (d : Dev) : Bool :=
  match d.trackerNext n slot with
  | some (s, _, r) =>
    let desc := d.routeDesc r.route
    d.mainUp && d.clk.refPresent && !(d.trk.steps.any fun t => t.stream == n && t.slot == slot) && !d.recordStuck s.fn &&
    !((trkReid (desc.drop 0x60)).isSome && (d.depot? (trackerDepot (d.reidPart desc))).any (·.rebuild))
  | none => false

/-- How association marks a detection: track, state and whether it is new, or a refused join (R301). -/
inductive DetMark where
  | untracked
  | deferred
  | track (id : Nat) (new : Bool)
  deriving DecidableEq, Repr

/-- What association has made so far: the tracks kept, the joined ones, the marks by detection, and refused joins. -/
structure Assoc where
  kept : List Track
  joined : List Track
  nextId : Nat
  marks : List (Nat × DetMark)
  deferred : Nat
  deriving DecidableEq, Repr

/-- A join is refused by MAX_TRACKS or the quota (R284, R293). `used` counts the function's entries before the picture,
entries that retire in it among them. -/
def joinFull (t : List Byte) (quota used : Nat) (a : Assoc) : Bool :=
  decide (trk t 0x10 2 ≤ a.kept.length + a.joined.length) || decide (quota ≤ used + a.joined.length)

/-- A detection joins with its sequence buffer, or is deferred (R293). -/
def Dev.join (d : Dev) (t : List Byte) (part owner quota used : Nat) (a : Assoc) (i : Nat) (x : Det) : Assoc × Dev :=
  let no := { a with marks := a.marks ++ [(i, .deferred)], deferred := a.deferred + 1 }
  let yes := fun (buf : Option (Nat × Nat)) => { a with
    joined := a.joined ++ [newTrack t a.nextId (trkReid t).isSome x buf]
    nextId := if a.nextId = 2 ^ 32 - 1 then 1 else a.nextId + 1, marks := a.marks ++ [(i, .track a.nextId true)] }
  if joinFull t quota used a then (no, d)
  else if (trkReid t).isNone then (yes none, d)
  else
    match d.allocTracker part owner with
    | none => (no, d)
    | some (ix, d) =>
      let id := trackerDepot part
      (yes (some (id, ix)), d.bufPut id ix 64 (zeros (d.bufLen id - 64)))

/-- Matched and unmatched tracks after a picture with observation (R290, R291): kept tracks and retired ones. -/
def stepTracks (t : List Byte) (dets : List Det) (trs : List Track) (ms : List (Nat × Nat)) : List Track × List Track :=
  (List.zip (upTo trs.length) trs).foldl (fun a q =>
    match (ms.find? (·.2 == q.1)).bind fun m => dets[m.1]? with
    | some x => (a.1 ++ [updateTrack t (trkReid t).isSome x q.2], a.2)
    | none =>
      match missTrack t q.2 with
      | some tr => (a.1 ++ [tr], a.2)
      | none => (a.1, a.2 ++ [q.2])) ([], [])

/-- A picture with observation: leaves, updates, joins (R293). -/
def Dev.associate (d : Dev) (t : List Byte) (part quota : Nat) (set : TrackSet) (dets : List Det) : Assoc × Dev :=
  let used := d.trackUse set.fn
  let ms := matches_ t dets set.tracks
  let r := stepTracks t dets set.tracks ms
  let d := r.2.foldl Dev.dropSeq d
  let idOf := fun (k : Nat) => ((set.tracks[k]?).map (·.id)).getD 0
  let a : Assoc :=
    { kept := r.1, joined := [], nextId := set.nextId, marks := ms.map fun m => (m.1, .track (idOf m.2) false), deferred := 0 }
  (List.zip (upTo dets.length) dets).foldl (fun (s : Assoc × Dev) q =>
    if !tracked t q.2.cls || ms.any (·.1 == q.1) then s
    else s.2.join t part (set.fn) quota used s.1 q.1 q.2) (a, d)

/-- The mark of a detection as its entry shows it: track ID and MARK (R301). -/
def markOf (a : Assoc) (i : Nat) : Nat × Nat :=
  let m : Option DetMark := (a.marks.find? (·.1 == i)).map (·.2)
  match m with
  | some (.track id new) =>
    let st := match (a.kept ++ a.joined).find? (·.id == id) with
      | some tr => if isTentative tr then 1 else 2
      | none => 0
    (id, st + 8 * b2n new)
  | some .deferred => (0, 4)
  | some .untracked | none => (0, 0)

/-! ### Mask lists (R106, R107) -/

/-- CLASS_MASK selects a class (R101). -/
def maskSel (cfg : List Byte) (cls : Nat) : Bool := bitAt (at_ cfg 0x20 8) (min cls 63)

/-- An FP32 coordinate rounded down or up, not clipped. -/
def edgeInt (up : Bool) (n : Nat) : Int :=
  match g32 n with
  | .fin s m e => if up then -(fFloor (!s) m e) else fFloor s m e
  | .inf s => sInt s (2 ^ 32)
  | .nan => 0

/-- A mask box of a picture: rounded outward, grown, made even for a solid mask, clipped (R106). -/
def maskBox (cfg : List Byte) (w h : Nat) (b : Box) (cls src : Nat) : Nat × Nat × Nat × Nat × Nat × Nat :=
  let m := at_ cfg 6 1
  let x0 := edgeInt false (e32 b.1)
  let y0 := edgeInt false (e32 b.2.1)
  let x1 := edgeInt true (e32 b.2.2.1)
  let y1 := edgeInt true (e32 b.2.2.2)
  let gx : Int := (ceilDiv ((x1 - x0).toNat * m) 100 : Nat)
  let gy : Int := (ceilDiv ((y1 - y0).toNat * m) 100 : Nat)
  let solid := at_ cfg 5 1 == 0
  let dn := fun (i : Int) => if solid then i / 2 * 2 else i
  let up := fun (i : Int) => if solid then (i + 1) / 2 * 2 else i
  ((clampI 0 w (dn (x0 - gx))).toNat, (clampI 0 h (dn (y0 - gy))).toNat, (clampI 0 w (up (x1 + gx))).toNat,
    (clampI 0 h (up (y1 + gy))).toNat, min cls 255, src)

/-- The entries that qualify for a picture's mask list: its detections, then the coasting tracks (R106). -/
def maskEntries (cfg : List Byte) (w h : Nat) (dets : List Det) (trs : List Track) :
    List (Nat × Nat × Nat × Nat × Nat × Nat) :=
  let coast := at_ cfg 7 1
  (dets.filter fun x => maskSel cfg x.cls).map (fun x => maskBox cfg w h (detBox x) x.cls 0) ++
  (trs.filter fun tr => isLost tr && maskSel cfg tr.cls && 1 ≤ tr.missed && tr.missed ≤ coast).map fun tr =>
    maskBox cfg w h (footBox tr) tr.cls 1

/-- The encode-context entry a route's masks follow: that of its open clip, else the table's (R101, R106). -/
def Dev.maskCfg (d : Dev) (f r : Nat) : List Byte :=
  match d.openClip r with
  | some c => c.cfg
  | none => d.commonRead f ((d.fn f).vencBase + 64 * at_ (d.routeDesc r) 8 2) 64

/-- Bytes of a mask-list entry. -/
def maskBytes (m : Nat × Nat × Nat × Nat × Nat × Nat) : List Byte :=
  le 2 m.1 ++ le 2 m.2.1 ++ le 2 m.2.2.1 ++ le 2 m.2.2.2.1 ++ le 1 m.2.2.2.2.1 ++ le 1 m.2.2.2.2.2 ++ zeros 6

/-- The track engine commits a picture's mask list (R106, R107). -/
def Dev.commitMasks (d : Dev) (s : Stream) (p : Pic) (r : Result) (failed : Bool) (dets : List Det) (trs : List Track) : Dev :=
  let cfg := d.maskCfg s.fn r.route
  let l := maskEntries cfg p.width p.height dets trs
  let tooMany := decide (256 < l.length)
  let l := l.take 256
  let d := d.modPic s.id p.serial fun p => { p with
    masks := l, maskOverflow := tooMany, maskFull := tooMany || failed || p.concealKind == 3 }
  let d := match p.buf with
    | some b => if d.holdsBuf s p then d.bufPut (videoDepot s.cls) b 0x3000 (fit 4096 (l.flatMap maskBytes)) else d
    | none => d
  d.maskCommitted s.id p.serial

/-! ### Records (R297 to R302) -/

/-- What a picture's record reports of its tracks. -/
structure TrackCounts where
  dets : Nat
  dropped : Nat
  conf : Nat
  tent : Nat
  lost : Nat
  deferred : Nat
  deriving DecidableEq, Repr

/-- The RESULT record of a picture (R300). -/
def resultRec (p : Pic) (r : Result) (codes : List Nat) (ext flags : Nat) (k : TrackCounts) (ents : List (List Byte)) :
    List Byte :=
  let info := at_ p.report 0x18 8
  recHead 1 (statusOf codes) ext flags (condMask codes) r.route r.stream ++ le 4 (p.number.getD 0) ++ le 4 r.waybill ++
  le 8 p.timestamp ++ le 8 (r.actualCk % 2 ^ 48) ++ le 4 r.replayCk ++ le 4 r.slipCk ++ le 2 r.arith ++ le 1 (r.win % 4) ++
  le 1 r.batch ++ le 2 k.dets ++ le 2 k.dropped ++ le 2 k.conf ++ le 2 k.tent ++ le 2 k.lost ++ le 2 k.deferred ++
  fit 48 ((ents.take 3).flatMap id) ++ le 4 p.decodeVk ++
  le 1 (bits info 10 2 + bits info 16 4 * 4 + bits info 20 1 * 64 + bits info 21 1 * 128) ++ le 1 (bits info 12 4) ++
  le 2 (bits info 0 10) ++ zeros 8

/-- The payloads of a picture's extension records, with their types, in order (R302). -/
def extPayloads (t : List Byte) (p : Pic) (r : Result) (codes : List Nat) (ents : List (List Byte)) : List (Nat × List Byte) :=
  let opt := trk t 0x17 1
  ((cut 6 (ents.length) (ents.drop 3)).map fun g => (1, g.flatMap id)) ++
  (if codes.any (fun c => c / 16 == 2) || p.heavy || bitAt opt 1 then [(2, p.report)] else []) ++
  (if bitAt opt 0 && r.job.isSome then [(3, r.hash)] else [])

/-- The chain of a picture's record becomes due on its route's queue; its output buffer goes free with the last of it
(R28, R391). -/
def Dev.oweChain (d : Dev) (t : List Byte) (s : Stream) (p : Pic) (r : Result) (codes : List Nat) (flags : Nat)
    (k : TrackCounts) (ents : List (List Byte)) : Dev :=
  let exts := extPayloads t p r codes ents
  let pic := p.number.getD 0
  let recs := resultRec p r codes exts.length flags k ents ::
    (List.zip (upTo exts.length) exts).map fun e => extRec codes flags r.route s.id e.2.1 (e.1 + 1) pic e.2.2
  let q := at_ (d.routeDesc r.route) 4 4 % 2 ^ 20
  let last := r.outBuf.map fun b => (outputDepot (at_ (d.routeDesc r.route) 0 1), b)
  (List.zip (upTo recs.length) recs).foldl (fun d e =>
    d.owe s.fn q e.2 (if e.1 + 1 = recs.length then last else none)) d

/-! ### Verdict entries (R303 to R306) -/

/-- The zones of the sealed charter. -/
def Dev.zones (d : Dev) : List Zone := if d.sealed then (d.charter.cur.map (·.zones)).getD [] else []

/-- CLEAR may be set: no bit of class 0x1 and none of 0x21 to 0x25 (R305). -/
def mayClear (codes : List Nat) : Bool := !codes.any fun c => c / 16 == 1 || (0x21 ≤ c && c ≤ 0x25)

/-- The entry of a zone rewritten for a picture. -/
def Dev.rewriteZone (d : Dev) (z : Zone) (trs : List Track) (observed clear : Bool) : Dev :=
  let v := rewriteVerdict z trs observed clear (d.lwd.ms, d.lwd.lk) (d.trk.verdicts.find? (·.zone == z.id))
  { d with trk := { d.trk with verdicts := d.trk.verdicts.filter (·.zone != z.id) ++ [v] } }

/-- Every zone on the stream and slot of a picture is rewritten (R305). -/
def Dev.rewriteZones (d : Dev) (n slot : Nat) (trs : List Track) (observed clear : Bool) : Dev :=
  (d.zones.filter fun z => z.stream == n && z.slot == slot).foldl (fun d z => d.rewriteZone z trs observed clear) d

/-! ### The re-identification step (R294, R295) -/

/-- PLANNED of SEQ_VAR in VARIANT[0] of a REID_ROUTE (R294). -/
def Dev.seqPlan (d : Dev) (t : List Byte) (reid : Nat) : Nat :=
  let desc := d.routeDesc reid
  match d.part? (at_ desc 0 1) with
  | some p => (((d.manifest p (variant desc 0)).shapes[at_ t 0x15 1]?).map (·.1)).getD 0
  | none => 0

/-- The REID_ROUTE carries a sequence model that can run (R294). -/
def Dev.reidReady (d : Dev) (f : Nat) (t : List Byte) (reid : Nat) : Bool :=
  (d.route? reid).any (fun x => x.fn == f && x.sequence) && d.seqPlan t reid != 0

/-- The unit with fewer queued tasks, CRU0 on a tie; a task that waits for its buffer is on no unit (R232). -/
def Video.cropUnit (v : Video) : Nat :=
  let n := fun u => (v.cropTasks.filter (·.unit == some u)).length
  if n 1 < n 0 then 1 else 0

/-- The preprocessing block a crop task takes from the REID_ROUTE: HWC, three channels, no halo, the CROP size (R233,
R294). -/
def cropParams (t desc : List Byte) : List Byte :=
  let b := (desc.drop 0x40).take 32
  b.take 8 ++ le 2 (trkCropW t) ++ le 2 (trkCropH t) ++ [0] ++ (b.drop 0xD).take 4 ++
    le 1 (at_ b 0x11 1 - at_ b 0x11 1 % 2) ++ [3, 0] ++ zeros 12

/-- The crop task of a step (R232, R233, R294). -/
def mkCrop (seq f route part : Nat) (s : Stream) (p : Pic) (prm : List Byte) (step : Nat) (boxes : List Det) : CropTask :=
  { seq := seq, fn := f, route := route, part := part, unit := none, picture := true, stream := s.id, serial := p.serial,
    srcDepot := videoDepot s.cls, srcBuf := p.buf.getD 0, w := p.width, h := p.height, chans := 3, srcFmt := 0,
    outW := prmOutW prm, outH := prmOutH prm, s := 1, filter := at_ prm 0xD 1, fill := 0, params := prm, norm := [],
    outFmt := prmFmt prm, boxes := boxes.map fun x => (x.x0, x.y0, x.x1, x.y1), boxMask := [], chanMask := [],
    dstBuf := none, stepId := step, running := false, startTick := 0 }

/-- A set's next record sets REID_FAILED (R294, R295). -/
def Dev.reidFails (d : Dev) (n slot : Nat) : Dev :=
  let sets := modIf (fun (t : TrackSet) => t.stream == n && t.slot == slot)
    (fun t => { t with reidFailed := true }) d.trk.sets
  { d with trk := { d.trk with sets := sets } }

/-- The step of a picture with observation, behind its record: one crop task over the matched detections of its updates
and joins (R293, R294). A step whose jobs cannot run fails, and issues no crop task; so does one whose picture's samples
are gone (log 61). -/
def Dev.startStep (d : Dev) (s : Stream) (p : Pic) (slot route : Nat) (t : List Byte) (seqs : List (Nat × Det)) : Dev :=
  match trkReid t with
  | none => d
  | some reid =>
    if !d.reidReady s.fn t reid then d.reidFails s.id slot
    else if seqs.isEmpty then d
    else if !d.holdsBuf s p then d.reidFails s.id slot
    else
      let desc := d.routeDesc reid
      let id := d.trk.stepSeq
      let task := d.video.cropSeq
      let part := at_ desc 0 1
      let step : ReidStep :=
        { id := id, fn := s.fn, route := route, slot := slot, stream := s.id, serial := p.serial, part := part,
          tracks := seqs.map (·.1), task := some task, jobs := [], issued := 0, cropBuf := none, cropDig := (0, 0),
          failed := false }
      let c := mkCrop task s.fn route part s p (cropParams t desc) id (seqs.map (·.2))
      let d : Dev := { d with trk := { d.trk with steps := d.trk.steps ++ [step], stepSeq := id + 1 } }
      let d := d.modVideo fun v => { v with cropTasks := v.cropTasks ++ [c], cropSeq := task + 1 }
      d.addReader s.cls (p.buf.getD 0)

/-- The sequences of a step with their detections: updates, then joins (R294). -/
def stepSeqs (a : Assoc) (dets : List Det) : List (Nat × Det) :=
  let detOf := fun (k : Nat) => (a.marks.findSome? fun m => match m.2 with
    | .track i _ => if i = k then dets[m.1]? else none
    | _ => none)
  (a.kept ++ a.joined).filterMap fun tr => (detOf tr.id).map fun x => (tr.id, x)

/-! ### A picture in the track engine -/

/-- The codes of a picture's record (R18, R81, R298). -/
def recordCodes (p : Pic) (r : Result) (deferred : Nat) : List Nat :=
  (withConcealed (p.conditions ++ r.codes) ++ if deferred = 0 then [] else [0x30]).eraseDups

/-- The detections of a picture's outcome (R286, R287). -/
def Dev.detsOf (d : Dev) (p : Pic) (r : Result) (t : List Byte) : List Det × Nat × Bool :=
  let part := at_ (d.routeDesc r.route) 0 1
  let g := cropGeo (d.passParams (mkPass 0 r.route r.slot r.stream r.serial)) p.width p.height
  readDets t g (d.ownerRead part r.outAddr r.outLen) r.outLen

/-- The tracks of a set after a picture (R288 to R292). -/
def Dev.trackSet (d : Dev) (t desc : List Byte) (set : TrackSet) (observed : Bool) (dets : List Det) : Assoc × Dev :=
  if observed then
    d.associate t (d.reidPart desc) (((d.funcCfg? set.fn).map (·.quota)).getD 0) set dets
  else
    ({ kept := set.tracks.map fun tr => { tr with delta := tr.delta + 1, fresh := false }, joined := [],
       nextId := set.nextId, marks := [], deferred := 0 }, d)

/-- Association, verdicts, masks, record and step of a picture, in this order (R29, R106, R288 to R305). -/
def Dev.trackPicture (d : Dev) (n slot : Nat) : Dev :=
  match d.trackerNext n slot, d.trk.sets.find? fun t => t.stream == n && t.slot == slot with
  | some (s, p, r), some set =>
    let desc := d.routeDesc r.route
    let t := desc.drop 0x60
    let base := recordCodes p r 0
    let seen := !unobserved base
    let got := if seen then d.detsOf p r t else ([], 0, false)
    let dets := got.1
    let m := d.trackSet t desc set seen dets
    let a := m.1
    let trs := a.kept ++ a.joined
    let new : TrackSet := { set with tracks := trs, nextId := a.nextId, reidFailed := false }
    let d := m.2
    let d : Dev := { d with trk := { d.trk with
      sets := modIf (fun x => x.stream == n && x.slot == slot) (fun _ => new) d.trk.sets
      results := d.trk.results.filter fun x => !(x.stream == n && x.slot == slot && x.serial == r.serial) } }
    let codes := recordCodes p r a.deferred
    let noOut := codes.any notDelivered
    let d := d.rewriteZones n slot trs seen (mayClear codes)
    let d := if bitAt (at_ desc 1 1) 1 then d.commitMasks s p r noOut dets trs else d
    let ents := if noOut then [] else (List.zip (upTo dets.length) dets).map fun q =>
      detBytes p.width p.height q.2 (markOf a q.1).1 (markOf a q.1).2
    let k : TrackCounts :=
      { dets := ents.length, dropped := got.2.1, conf := (trs.filter isConfirmed).length,
        tent := (trs.filter isTentative).length, lost := (trs.filter isLost).length, deferred := a.deferred }
    let flags := b2n noOut + 2 * b2n got.2.2 + 4 * b2n set.reidFailed
    let d := d.oweChain t s p r codes flags k ents
    let d := d.modPic n p.serial fun p => { p with recordsDue := p.recordsDue.filter (· != slot) }
    let d := d.modFn s.fn fun x => { x with
      trkCnt := bump 2 got.2.1 (bump 1 a.deferred (bump 0 1 x.trkCnt)) }
    (if seen then d.startStep s p slot r.route t (stepSeqs a dets) else d).tidy n
  | _, _ => d

/-! ### Jobs of a step (R294, R295) -/

/-- The states of a job's sequences, `stride` bytes each. -/
def Dev.statesOf (d : Dev) (set : TrackSet) (stride : Nat) (ids : List Nat) : List Byte :=
  ids.flatMap fun k =>
    match (set.tracks.find? (·.id == k)).bind (·.seqBuf) with
    | some b =>
      match d.depot? b.1 with
      | some x => fit stride (d.bufRead x b.2 64 (min stride (x.bufKib * 1024 - 64)))
      | none => zeros stride
    | none => zeros stride

/-- A gather buffer with an output buffer, both for the tracker stage, or neither (R390). -/
def Dev.seqBufs (d : Dev) (part : Nat) : Option (Nat × Nat × Dev) :=
  match d.alloc (inputDepot part) stageTrk with
  | some (i, d) =>
    match d.alloc (outputDepot part) stageTrk with
    | some (o, d) => some (i, o, d)
    | none => none
  | none => none

/-- A step changed. -/
def Dev.modStep (d : Dev) (id : Nat) (g : ReidStep → ReidStep) : Dev :=
  { d with trk := { d.trk with steps := modIf (·.id == id) g d.trk.steps } }

/-- The step has a sequence whose job is not issued, and its crops lie in their buffer. -/
def ReidStep.waits (s : ReidStep) : Bool := s.task.isNone && s.cropBuf.isSome && decide (s.issued < s.tracks.length)

/-- The next job of a step is issued with its two buffers; none where they cannot be had (R294, R390). -/
def Dev.issueJob (d : Dev) (id : Nat) : Option Dev :=
  match d.trk.steps.find? (·.id == id) with
  | none => none
  | some s =>
    let t := d.stepTrk id
    let reid := (trkReid t).getD 0xFFFF
    let plan := d.seqPlan t reid
    if !s.waits then none
    else if plan = 0 then
      some ((d.modStep id fun s => { s with issued := s.tracks.length, failed := true }).stepEnds id)
    else
      match d.seqBufs s.part, d.part? s.part, d.trk.sets.find? fun x => x.stream == s.stream && x.slot == s.slot with
      | some (i, o, d), some p, some set =>
        let mf := variant (d.routeDesc reid) 0
        let ids := (s.tracks.drop s.issued).take plan
        let len := (((d.manifest p mf).regions.filter (·.kind == 0))[1]?.map (·.len)).getD 0
        let bs := d.statesOf set (len / plan) ids
        let d := d.bufPut (inputDepot s.part) i 64 bs
        let j := d.newJob s.part
        let e : JobEntry :=
          { id := j.1, part := s.part, fn := s.fn, src := .seq reid s.stream s.slot id s.issued ids.length, mf := mf,
            inBufs := [s.cropBuf.getD 0, i], outBufs := [o], digests := [s.cropDig, byteDigest 0 bs (0, 0)] }
        let d := j.2.modPart s.part fun p => { p with list := p.list ++ [e] }
        some (d.modStep id fun s => { s with issued := s.issued + ids.length, jobs := s.jobs ++ [j.1] })
      | _, _, _ => none

/-- A step issues its jobs in order while buffers can be had. -/
def Dev.issueJobs (id : Nat) : Nat → Dev → Dev
  | 0, d => d
  | n + 1, d =>
    match d.issueJob id with
    | some d => issueJobs id n d
    | none => d

/-! ### The verdict table and port (R306 to R319) -/

/-- FROZEN: in Leeward and Waking, and in Draining once the track engine has finished the last picture (R306). -/
def Dev.frozen (d : Dev) : Bool :=
  match d.lwd.st with
  | .leeward | .waking => true
  | .draining =>
    d.trk.results.isEmpty && d.video.streams.all fun s =>
      (d.nextForward s).isNone &&
      s.pics.all fun p =>
        (p.phase == .decoded || p.phase == .gone || (p.phase == .fetching && !p.begun)) && p.recordsDue.isEmpty
  | _ => false

/-- The 16 bytes of a zone's entry as read now (R306). -/
def Dev.zoneBytes (d : Dev) (z : Nat) : List Byte :=
  verdictBytes z (d.zones.any (·.id == z)) d.frozen (d.trk.verdicts.find? (·.zone == z)) (d.lwd.ms, d.lwd.lk)

/-- The main domain is held in reset or is booting (R488). -/
def Dev.mainDown (d : Dev) : Bool := match d.boot with
  | .held | .booting _ _ => true
  | _ => false

/-- STATE of a response (R310, R488). -/
def Dev.stateWire (d : Dev) : Nat :=
  if d.mainDown then 2
  else match d.lwd.st with
    | .leeward => 1
    | .waking => 2
    | .draining => 3
    | _ => 0

/-- The frame check sequence of Ethernet, continued over bytes: the CRC-32 of IEEE 802.3 (PRESUMED, log 21). -/
def crcGo : List Byte → Nat → Nat
  | [], c => c
  | b :: bs, c =>
    let step := fun (x : Nat) => if x % 2 = 1 then x / 2 ^^^ 0xEDB88320 else x / 2
    let x := c ^^^ b.toNat
    crcGo bs (step (step (step (step (step (step (step (step x))))))))

/-- The FCS of a frame, as its four bytes travel. -/
def fcs (f : List Byte) : List Byte := le 4 (crcGo f 0xFFFFFFFF ^^^ 0xFFFFFFFF)

/-- A frame with its tag and its FCS cut out (R307, R308). -/
structure VFrame where
  dst : List Byte
  src : List Byte
  tag : List Byte
  ety : Nat
  pay : List Byte
  deriving DecidableEq, Repr

def parseFrame (f : List Byte) : VFrame :=
  let f := f.take (f.length - 4)
  let tagged := ofBe ((f.drop 12).take 2) == 0x8100
  let o := if tagged then 16 else 12
  { dst := f.take 6, src := (f.drop 6).take 6, tag := if tagged then (f.drop 12).take 4 else [],
    ety := ofBe ((f.drop o).take 2), pay := f.drop (o + 2) }

/-- A query of R309: its zone IDs, none where it is malformed (R308). -/
def queryZones (p : List Byte) : Option (List Nat) :=
  let op := at_ p 1 1
  let n := ofBe ((p.drop 2).take 2)
  let need := if op = 1 then 8 + 2 * n else 10
  if p.length < 8 || at_ p 0 1 != 1 || !(op == 1 || op == 2) || n == 0 || 64 < n || p.length < need then none
  else if op = 1 then some ((upTo n).map fun i => ofBe ((p.drop (8 + 2 * i)).take 2))
  else some ((upTo n).map fun i => ofBe ((p.drop 8).take 2) + i)

/-- A response with its padding and FCS (R310). -/
def Dev.response (d : Dev) (f : VFrame) (zs : List Nat) : List Byte :=
  let bs := f.src ++ d.vpt.mac ++ f.tag ++ be 2 0x88B5 ++ [1, BitVec.ofNat 8 (at_ f.pay 1 1 + 0x80)] ++ be 2 zs.length ++
    (f.pay.drop 4).take 4 ++ le 1 d.stateWire ++ zeros 3 ++ be 4 (d.lwd.ms % 2 ^ 32) ++ zs.flatMap d.zoneBytes
  let bs := bs ++ zeros (60 - bs.length)
  bs ++ fcs bs

/-- The frame is one the responder considers (R307, R308). -/
def Dev.considered (d : Dev) (bs : List Byte) : Bool :=
  let f := parseFrame bs
  decide (18 ≤ bs.length) && decide (bs.length ≤ 1522) && fcs (bs.take (bs.length - 4)) == bs.drop (bs.length - 4) &&
  f.dst == d.vpt.mac && f.ety == 0x88B5 && (f.tag.isEmpty || bitAt d.vpt.ctl 1) &&
  (!bitAt d.vpt.ctl 2 || d.vpt.allow.contains f.src)

/-- Ticks of the longest service of a query: 400 ns (R311). -/
def serviceTicks : Nat := 2080

/-- The queries that have not left the responder (R311, R319). -/
def Vpt.waiting (v : Vpt) (now : Nat) : List Nat := v.held.filter fun t => decide (now < t)

/-- A considered query of these zones is answered, or dropped where 16 are held (R311). The time of its service and the
measured time are free values within the bounds of R311. -/
def Dev.answer (d : Dev) (f : VFrame) (zs : List Nat) : Dev :=
  let held := d.vpt.waiting d.ticks
  if 16 ≤ held.length then { d with vpt := { d.vpt with held := held, dropped := satAdd 64 d.vpt.dropped 1 } }
  else
    let a := drawFree d
    let b := drawFree a.2
    let start := held.foldl max d.ticks
    let done := start + a.1 % (serviceTicks + 1)
    let ns := (start - d.ticks) * 10 / 52 + b.1 % 1601
    let d := b.2
    ({ d with vpt := { d.vpt with
        held := held ++ [done], queries := satAdd 64 d.vpt.queries 1, worstNs := max d.vpt.worstNs ns } } : Dev).emit
      (.frame (d.response f zs))

/-- The responder answers: its rail is up, and it is enabled, or the main domain is down (R318, R488, log 62). -/
def Dev.responds (d : Dev) : Bool :=
  d.pins.leewardRail && decide (d.vpt.ready ≤ d.ticks) && d.vpt.linkUp && (bitAt d.vpt.ctl 0 || d.mainDown)

/-- A frame on the verdict port (R307 to R312). A responder that is off or not enabled takes none. -/
def Dev.verdictFrame (d : Dev) (bs : List Byte) : Dev :=
  if !d.responds then d
  else if !d.considered bs then { d with vpt := { d.vpt with other := satAdd 64 d.vpt.other 1 } }
  else
    match queryZones (parseFrame bs).pay with
    | none => { d with vpt := { d.vpt with bad := satAdd 64 d.vpt.bad 1 } }
    | some zs => d.answer (parseFrame bs) zs

/-! ### Zone reads over the registers (R315, R316) -/

/-- A write of TRK_ZONE_SEL latches a zone's entry; another function's zone reads as UNKNOWN. A zone belongs to the function
that owns its stream (R303). -/
def Dev.zoneSelect (d : Dev) (f z : Nat) : Dev :=
  let z := z % 4096
  let own := d.zones.any fun x => x.id == z && (f == 0 || d.ownsStream f x.stream)
  let bs := if own then d.zoneBytes z
    else verdictBytes z false d.frozen none (d.lwd.ms, d.lwd.lk)
  d.modFn f fun x => { x with zoneSel := z, zoneData := bs }

/-! ### Meanings -/

/-- TRACKER_PICTURE (R28, R29, R288 to R305). -/
def execTrackerPicture (stream slot : Nat) (s : State) : Host.Outcome State Fault Refusal :=
  whenDue "TRACKER_PICTURE" (dueTracker stream slot s.dev) s fun d => d.trackPicture stream slot

/-- VERDICT_QUERY (R308 to R312). -/
def execVerdictQuery (frame : List Byte) (s : State) : Host.Outcome State Fault Refusal :=
  always s fun d => d.verdictFrame frame

/-- ZONE_SELECT (R315). -/
def execZoneSelect (fn zone : Nat) (s : State) : Host.Outcome State Fault Refusal :=
  always s fun d => d.access fn .rest fun d => d.zoneSelect fn (zone % 2 ^ 12)

end Sys2Proof.Machine
end

