-- ==== Sys2Proof/Machine/Crop.lean ====
section
/-! DEFINITION. The crop-resize units: boxes, sampling points, crops of pictures and of feature maps, and the tasks
(R232 to R244). -/

namespace Sys2Proof.Machine

/-! ### Sampling (R234, R235) -/

/-- A box of a crop task, FP32 values. -/
def cropBox (b : Nat × Nat × Nat × Nat) : Box := (g32 b.1, g32 b.2.1, g32 b.2.2.1, g32 b.2.2.2)

/-- A bad box (R234). -/
def badBox (b : Box) : Bool :=
  !(b.1.isFin && b.2.1.isFin && b.2.2.1.isFin && b.2.2.2.isFin) || fLt b.2.2.1 b.1 || fLt b.2.2.2 b.2.1

def fHalf : FV := .fin false 1 (-1)

/-- One coordinate of a sub-point: from edge `lo` of a box to `hi`, `n` elements, element `k`, sub-point `a` of `s`
(R235). -/
def subPoint (lo hi : FV) (n k a s : Nat) : FV :=
  let bw := fDiv fp32 (fSub fp32 hi lo) (fOfInt n)
  let o := fAdd fp32 (fOfInt k) (fDiv fp32 (.fin false (2 * a + 1) (-1)) (fOfInt s))
  fSub fp32 (fAdd fp32 lo (fMul fp32 o bw)) fHalf

/-- A point is outside a source of `w` by `h` (R235). -/
def outside (w h : Nat) (x y : FV) : Bool :=
  let lo := fOfInt (-1)
  fLt x lo || fLt (fOfInt w) x || fLt y lo || fLt (fOfInt h) y

/-- A finite value rounded down. -/
def floorOf : FV → Int
  | .fin s m e => fFloor s m e
  | _ => 0

/-- A coordinate clamped to the samples of a line of `n`: its value, and the two samples with their weights (R235). -/
def lineAt (n : Nat) (x : FV) : FV × Nat × Nat × FV × FV :=
  let xc := fMin (fMax x (fZero false)) (fOfInt ((n : Int) - 1))
  let ix := (floorOf xc).toNat
  let fx := fSub fp32 xc (fOfInt ix)
  (xc, ix, min (ix + 1) (n - 1), fx, fSub fp32 fOne fx)

/-- A plane of `w` by `h` at a point: nearest or bilinear (R235). -/
def planeAt (nearest : Bool) (w h : Nat) (rd : Nat → Nat → FV) (x y : FV) : FV :=
  let lx := lineAt w x
  let ly := lineAt h y
  if nearest then rd (floorOf (fAdd fp32 lx.1 fHalf)).toNat (floorOf (fAdd fp32 ly.1 fHalf)).toNat
  else
    let row := fun (j : Nat) =>
      fAdd fp32 (fMul fp32 (rd lx.2.1 j) lx.2.2.2.2) (fMul fp32 (rd lx.2.2.1 j) lx.2.2.2.1)
    fAdd fp32 (fMul fp32 (row ly.2.1) ly.2.2.2.2) (fMul fp32 (row ly.2.2.1) ly.2.2.2.1)

/-- The chroma point of a luma point (R235). -/
def cropChroma (x y : FV) : FV × FV :=
  (fDiv fp32 x (.fin false 2 0), fDiv fp32 (fSub fp32 y fHalf) (.fin false 2 0))

/-- The mean of an element's sub-points (R236). -/
def meanOf (s : Nat) (vs : List FV) : FV :=
  match vs with
  | [] => fZero false
  | v :: vs => fDiv fp32 (vs.foldl (fAdd fp32) v) (fOfInt (s * s))

/-- The sub-points of element (i, j) of a box, `a` outer (R235, R236). -/
def subPoints (t : CropTask) (b : Box) (i j : Nat) : List (FV × FV) :=
  (upTo t.s).flatMap fun a => (upTo t.s).map fun c =>
    (subPoint b.1 b.2.2.1 t.outW j c t.s, subPoint b.2.1 b.2.2.2 t.outH i a t.s)

/-- Outside points of a box (R235). -/
def outsideCount (t : CropTask) (b : Box) : Nat :=
  sum ((upTo t.outH).flatMap fun i => (upTo t.outW).map fun j =>
    ((subPoints t b i j).filter fun p => outside t.w t.h p.1 p.2).length)

/-! ### Elements (R236, R237) -/

/-- A mask's bit; an empty mask enables everything. -/
def maskOn (m : List Bool) (k : Nat) : Bool := m.isEmpty || (m[k]?).getD false

/-- An averaged plane value as a 10-bit sample (R236). -/
def tenBits : FV → Nat
  | .fin s m e => (clampI 0 1023 (rneInt s m e)).toNat
  | .inf s => if s then 0 else 1023
  | .nan => 0

/-- An element of a picture's crop from its Y, Cb and Cr, colour and normalisation as in a pass (R129, R130, R236). -/
def pictureElem (t : CropTask) (y cb cr : Nat) : List Nat :=
  let l := toRgb (at_ t.params 0xE 1) y cb cr
  let l := if prmBgr t.params then l.reverse else l
  (List.zip (upTo l.length) l).map fun e => normElem t.outFmt ((t.norm[e.1]?).getD 0) e.2

/-- Mid-grey as an element. -/
def greyElem (t : CropTask) : List Nat := pictureElem t 512 512 512

/-- Disabled channels of a picture's crop take mid-grey (R237). -/
def withChanMask (t : CropTask) (off l : List Nat) : List Nat :=
  (List.zip (upTo l.length) l).map fun e => if maskOn t.chanMask e.1 then e.2 else (off[e.1]?).getD 0

/-- Element (i, j) of a picture's crop. -/
def Dev.pictureAt (d : Dev) (t : CropTask) (q : PicSrc) (b : Box) (i j : Nat) : List Nat :=
  let up := fun (v : Nat) => fOfInt ((if q.depth ≤ 8 then v * 4 else v : Nat) : Int)
  let near := t.filter == 1
  let cw := (t.w + 1) / 2
  let ch := (t.h + 1) / 2
  let mid := fOfInt 512
  let pts := subPoints t b i j
  let plane := fun (f : FV → FV → FV) => tenBits (meanOf t.s (pts.map fun p =>
    if outside t.w t.h p.1 p.2 then mid else f p.1 p.2))
  let y := plane (planeAt near t.w t.h fun a c => up (d.lumaAt q a c))
  let chroma := fun (k : Nat) => plane fun a c =>
    let p := cropChroma a c
    planeAt near cw ch (fun a c => up (d.chromaAt q k a c)) p.1 p.2
  withChanMask t (greyElem t) (pictureElem t y (chroma 0) (chroma 1))

/-- The format code of R166 of a SRC_FORMAT (R233). -/
def srcCode : Nat → Nat
  | 0 => 14
  | 1 => 6
  | 2 => 7
  | 3 => 0
  | _ => 1

/-- Bytes of an element of a SRC_FORMAT. -/
def srcBytes (f : Nat) : Nat := fmtBits (srcCode f) / 8

/-- An element of a feature map, laid out as R130 without halo from byte 64 of its buffer (log 22). -/
def Dev.mapAt (d : Dev) (t : CropTask) (dep : Depot) (c x y : Nat) : FV :=
  let s := srcBytes t.srcFmt
  let pitch := roundUp (t.w * t.chans * s) 64
  elemVal (srcCode t.srcFmt) (ofLe (d.bufRead dep t.srcBuf (64 + y * pitch + (x * t.chans + c) * s) s))

/-- A value of a feature map's crop in the output format (R236): under R179 or R180, and FP32 as it stands. -/
def CropTask.outElem (t : CropTask) (v : FV) : Nat :=
  if srcCode t.outFmt = 14 then fEnc fp32 v else (cvtTo (srcCode t.outFmt) false v).1

/-- Element (i, j) of a feature map's crop: FILL at outside points and disabled channels (R235 to R237). -/
def Dev.mapElem (d : Dev) (t : CropTask) (dep : Depot) (b : Box) (i j : Nat) : List Nat :=
  let pts := subPoints t b i j
  (upTo t.chans).map fun c =>
    let v := if maskOn t.chanMask c then
        meanOf t.s (pts.map fun p =>
          if outside t.w t.h p.1 p.2 then g32 t.fill else planeAt (t.filter == 1) t.w t.h (d.mapAt t dep c) p.1 p.2)
      else g32 t.fill
    t.outElem v

/-- FILL as an element of a feature map's crop. -/
def fillElem (t : CropTask) : List Nat := List.replicate t.chans (t.outElem (g32 t.fill))

/-- The source of a picture task. -/
def Dev.cropSrc (d : Dev) (t : CropTask) : Option PicSrc :=
  match d.stream? t.stream, d.pic? t.stream t.serial with
  | some s, some p => d.picSrc s p
  | _, _ => none

/-- The elements of crop `k`, row by row (R234 to R237). -/
def Dev.cropElems (d : Dev) (t : CropTask) (k : Nat) (b : Box) : List (List (List Nat)) :=
  let blank := if t.picture then greyElem t else fillElem t
  let elem := fun (i j : Nat) =>
    if !maskOn t.boxMask k || badBox b then blank
    else if t.picture then (match d.cropSrc t with | some q => d.pictureAt t q b i j | none => blank)
    else (match d.depot? t.srcDepot with | some dep => d.mapElem t dep b i j | none => blank)
  (upTo t.outH).map fun i => (upTo t.outW).map fun j => elem i j

/-- Bytes of an element of a task's crops. -/
def CropTask.elemSize (t : CropTask) : Nat := if t.picture then elemBytes t.outFmt else srcBytes t.outFmt

/-- The crops of a task, each in the layout of R130 without halo, one behind another (R232). -/
def cropBytes (t : CropTask) (px : List (List (List (List Nat)))) : List Byte :=
  let pad := if t.picture then (t.norm[3]?).getD 0 % 2 ^ (8 * t.elemSize) else 0
  let pitch := roundUp (t.outW * t.chans * t.elemSize) 64
  px.flatMap fun crop => crop.flatMap fun row => rowBytes pitch t.elemSize pad (row.flatMap id)

/-! ### Tasks (R232, R238) -/

/-- ck of one box of a task (R238). -/
def CropTask.boxCost (t : CropTask) : Nat := 32 + ceilDiv (t.outH * t.outW * t.s * t.s * t.chans) 256

/-- ck of a task (R238). -/
def CropTask.cost (t : CropTask) : Nat := 64 + t.boxes.length * t.boxCost

/-- ck a running task has taken so far. -/
def Dev.cropSoFar (d : Dev) (t : CropTask) : Nat := (d.run - t.startTick) / ckTicks

/-- BOX: the box a running task samples (R238, R244). -/
def Dev.cropBoxNow (d : Dev) (t : CropTask) : Nat := min (t.boxes.length - 1) ((d.cropSoFar t - 64) / t.boxCost)

/-- A crop task changed. -/
def Dev.modCrop (d : Dev) (seq : Nat) (g : CropTask → CropTask) : Dev :=
  d.modVideo fun v => { v with cropTasks := modIf (·.seq == seq) g v.cropTasks }

/-- A task is granted its buffer of the partition's input depot, for the tracker stage (R390), and goes to a unit
(R232). -/
def Dev.grantCrop (d : Dev) (t : CropTask) : Option Dev :=
  (d.alloc (inputDepot t.part) stageTrk).map fun r =>
    r.2.modCrop t.seq fun t => { t with dstBuf := some r.1, unit := some d.video.cropUnit }

/-- The task a unit runs, and the one it runs next: of the tasks that have gone to it, the first issued (R232). -/
def Dev.cropOn (d : Dev) (u : Nat) : Option CropTask := d.video.cropTasks.find? fun t => t.unit == some u && t.running
def Dev.firstCrop (d : Dev) (u : Nat) : Option CropTask :=
  d.video.cropTasks.find? fun t => t.unit == some u && !t.running

/-- CROP_TASK_START is due (R232). -/
def dueCropStart (u : Nat) (d : Dev) : Bool :=
  d.mainUp && d.clk.refPresent && (d.cropOn u).isNone && (d.firstCrop u).isSome

/-- A unit takes its next task; it reads the normalisation set. -/
def Dev.cropStart (d : Dev) (u : Nat) : Dev :=
  match d.firstCrop u with
  | none => d
  | some t =>
    let set := (d.fn t.fn).normSet (at_ t.params 0xF 1)
    let d := d.modCrop t.seq fun t => { t with running := true, startTick := d.run, norm := set.ch ++ [set.pad] }
    d.modVideo fun v => { v with
      cru := modAt (fun x => { x with lastRoute := t.route }) u v.cru }

/-- CROP_TASK_DONE is due (R238). -/
def dueCropDone (u : Nat) (d : Dev) : Bool :=
  match d.cropOn u with
  | some t => d.mainUp && decide (t.startTick + ckTicks * t.cost ≤ d.run)
  | none => false

/-- The boxes of a task with their numbers. -/
def CropTask.numbered (t : CropTask) : List (Nat × Box) :=
  (List.zip (upTo t.boxes.length) t.boxes).map fun q => (q.1, cropBox q.2)

/-- What a task adds to CRU_BOXES, CRU_BAD_BOXES and CRU_OUTSIDE (R234 to R237): nothing is sampled where every channel
is disabled. -/
def CropTask.counts (t : CropTask) : Nat × Nat × Nat :=
  let on_ := t.numbered.filter fun q => maskOn t.boxMask q.1 && (upTo t.chans).any (maskOn t.chanMask)
  let good := on_.filter fun q => !badBox q.2
  (good.length, on_.length - good.length, sum (good.map fun q => outsideCount t q.2))

/-- The source of a task loses its reader (R77). -/
def Dev.cropReads (d : Dev) (t : CropTask) : Dev :=
  if t.picture then d.dropReader (t.srcDepot) t.srcBuf t.stream else d

/-- A task ends: its crops are written and digested (R232, R328), and its step's jobs are issued (R294). -/
def Dev.cropDone (d : Dev) (u : Nat) : Dev :=
  match d.cropOn u with
  | none => d
  | some t =>
    let px := t.numbered.map fun q => d.cropElems t q.1 q.2
    let dig := elemsDigest 0 (px.flatMap fun c => c.flatMap fun r => r.flatMap id) (0, 0)
    let d := d.bufPut (inputDepot t.part) (t.dstBuf.getD 0) 64 (cropBytes t px)
    let k := t.counts
    let d := d.modFn t.fn fun x => { x with
      cruCnt := bump 3 k.2.2 (bump 2 k.2.1 (bump 1 k.1 (bump 0 1 x.cruCnt))) }
    let d := d.modVideo fun v => { v with
      cropTasks := v.cropTasks.filter (·.seq != t.seq)
      cru := modAt (fun x => { x with busyCk := satAdd 64 x.busyCk t.cost }) u v.cru }
    let d := d.modStep t.stepId fun s => { s with task := none, cropBuf := t.dstBuf, cropDig := dig }
    let n := ((d.trk.steps.find? (·.id == t.stepId)).map (·.tracks.length)).getD 0
    (Dev.issueJobs t.stepId n d).cropReads t

/-! ### Meanings -/

/-- CROP_TASK_START (R232). -/
def execCropTaskStart (unit : Nat) (s : State) : Host.Outcome State Fault Refusal :=
  whenDue "CROP_TASK_START" (dueCropStart unit s.dev) s fun d => d.cropStart unit

/-- CROP_TASK_DONE (R238). -/
def execCropTaskDone (unit : Nat) (s : State) : Host.Outcome State Fault Refusal :=
  whenDue "CROP_TASK_DONE" (dueCropDone unit s.dev) s fun d => d.cropDone unit

end Sys2Proof.Machine
end

