-- ==== Sys2Proof/Machine/Ingress.lean ====
section
/-! DEFINITION. Ingress and the host's memory accesses: fetches from submission queues and their refusals (R447, R449),
fetch errors (R450), depot grants and rebuilds (R385 to R387), table bases (R422), the error log (R463) and BAR2 (R438 to
R441). -/

namespace Sys2Proof.Machine

/-! ### Which queue is fetched from (R393, R447) -/

/-- Headwind-2 holds the job descriptors that name a partition (R393). -/
def Dev.jobHeld (d : Dev) (p : Nat) : Bool := d.hw2 (inputDepot p) || d.hw2 (outputDepot p)

/-- A CHUNK or JOB SQ that ingress may fetch from. -/
def Dev.fetchable (d : Dev) (x : Queue) : Bool :=
  x.st == .enabled && (x.type == 1 || x.type == 2) && 0 < x.avail && d.mayRequest x.fn && !d.hw2 (overflowDepot x.fn) &&
  (match x.waits with | some p => !d.jobHeld p | none => true)

/-- Queues of a function that ingress may fetch from. -/
def Dev.fetchQueues (d : Dev) (f : Nat) : List Queue := d.queues.filter fun x => x.fn == f && d.fetchable x

/-- The function whose turn it is: functions take turns with equal shares (R447). -/
def Dev.fetchFn (d : Dev) : Option Nat :=
  ((upTo 7).map fun i => (d.link.lastFn + 1 + i) % 7).find? fun f => !(d.fetchQueues f).isEmpty

/-- Fetches a queue has left in its function's round, WEIGHT in all (R447). -/
def Link.credit (l : Link) (x : Queue) : Nat := ((l.credits.find? (·.1 == x.id)).map (·.2)).getD x.weight

/-- The queue may be fetched from in its function's round: it has a fetch left, or no queue with entries has one. -/
def Dev.inRound (d : Dev) (x : Queue) : Bool :=
  0 < d.link.credit x || (d.fetchQueues x.fn).all fun y => d.link.credit y == 0

/-- A fetch of the queue is counted in the rounds. -/
def Dev.countRound (d : Dev) (x : Queue) : Dev :=
  let c := d.link.credit x
  let mine := (d.fetchQueues x.fn).map (·.id)
  let rest := if c = 0 then d.link.credits.filter fun q => !mine.contains q.1 else d.link.credits.filter (·.1 != x.id)
  let left := if c = 0 then x.weight - 1 else c - 1
  { d with link := { d.link with lastFn := x.fn, credits := rest ++ [(x.id, left)] } }

/-- SQ_FETCH is due: up to 8 posted entries of the queue whose turn it is (R447). -/
def dueSqFetch (q : Nat) (entries : List (List Byte)) (d : Dev) : Bool :=
  match d.queue? q with
  | some x =>
    d.mainUp && d.lwd.st == .active && d.sealed && d.mem.open_ && d.fetchable x && d.fetchFn == some x.fn && d.inRound x &&
    1 ≤ entries.length && entries.length ≤ min 8 x.avail && entries.all (·.length == 64)
  | none => false

/-! ### Entries (R68, R69, R357, R449) -/

/-- Reserved bits of a chunk descriptor are 0 and its length is in range (R68, R69). -/
def chunkFieldsOk (e : List Byte) : Bool :=
  at_ e 0 2 < 2 ^ 14 && at_ e 2 2 < 8 && at_ e 4 4 ≤ 2 ^ 25 && at_ e 0x18 8 == 0

/-- The reason a chunk descriptor is refused; none where it is accepted (R449). -/
def Dev.chunkRefusal (d : Dev) (x : Queue) (e : List Byte) : Option Nat :=
  let n := at_ e 0 2 % 2 ^ 14
  if !chunkFieldsOk e then some 3
  else if !d.ownsStream x.fn n then some 2
  else
    match d.stream? n with
    | none => some 1
    | some s =>
      if s.closing then some 1
      else if s.bound.any (· != x.id) then some 4
      else none

/-- Reserved bytes of a job descriptor are 0 (R357, R449). -/
def jobFieldsOk (e : List Byte) : Bool :=
  at_ e 1 1 < 2 && at_ e 2 2 == 0 && at_ e 0x1C 4 < 2 ^ 20 && (e.drop 0x20).all (· == 0)

/-- A host job enters the partition it names: at the tail of the dispatch list, or among the mustered jobs (R358, R360,
R363). One that names another function's partition fails check 1 there (R362). A job for a partition the charter does not
define ends at once with MANIFEST_INVALID (log 33). -/
def Dev.hostJob (d : Dev) (f : Nat) (e : List Byte) : Dev :=
  let part := at_ e 0 1
  let muster := bitAt (at_ e 1 1) 0
  let src := JobSrc.host (at_ e 4 4) (at_ e 0x1C 4) (at_ e 0x10 8) muster (at_ e 0x18 4)
  let mk := fun (id : Nat) =>
    ({ id := id, part := part, fn := f, src := src, mf := at_ e 8 8, inBufs := [], outBufs := [], digests := [] } : JobEntry)
  match d.part? part with
  | some _ =>
    let j := d.newJob part
    j.2.modPart part fun q =>
      if muster then { q with mustered := q.mustered ++ [mk j.1] } else { q with list := q.list ++ [mk j.1] }
  | none => d.report (mk 0) (JobEnd.nothing 0x11 0) 0 0 [] false

/-- One fetched entry, number `c` of its queue: accepted, or refused with a record (R449). -/
def Dev.takeEntry (d : Dev) (x : Queue) (c : Nat) (e : List Byte) : Dev :=
  if x.type = 1 then
    match d.chunkRefusal x e with
    | some r => d.refuseEntry x c r (at_ e 0 2 % 2 ^ 14) e
    | none => d.addChunk (at_ e 0 2) x.id e
  else if !jobFieldsOk e then d.refuseEntry x c 3 0 e
  else if !d.enabledCq x.fn (at_ e 0x1C 4) then d.refuseEntry x c 5 0 e
  else d.hostJob x.fn e

/-- The partition a job entry names, where headwind-2 holds it (R393). -/
def Dev.entryHeld (d : Dev) (x : Queue) (e : List Byte) : Option Nat :=
  let p := at_ e 0 1
  if x.type = 2 && p < 6 && d.jobHeld p then some p else none

/-- A fetch: the entries up to the first one that headwind-2 holds are consumed, HEAD_ADDR is written, and their effects
follow (R447, R449). An entry that is held stays in host memory, and its queue waits for the partition. -/
def Dev.sqFetch (d : Dev) (q : Nat) (entries : List (List Byte)) : Dev :=
  match d.queue? q with
  | none => d
  | some x =>
    let take := entries.takeWhile fun e => (d.entryHeld x e).isNone
    let held := (entries.drop take.length).head?.bind (d.entryHeld x)
    let d := d.countRound x
    let d := if take.isEmpty then d else d.countFetch x take.length
    let d := d.modQueue q fun y => { y with waits := held }
    (List.zip (upTo take.length) take).foldl (fun d e => d.takeEntry x ((x.device + e.1) % 2 ^ 32) e.2) d

/-! ### Fetch errors (R450) -/

/-- A queue goes to ERROR for a failed fetch: counted and logged. -/
def Dev.fetchFails (d : Dev) (f kind q detail : Nat) : Dev :=
  (d.modFn f fun x => { x with fetchErrors := satAdd 64 x.fetchErrors 1 }).logError f kind q detail

/-- FETCH_COMPLETION_ERROR is due: the fetch is under way. -/
def dueFetchError (e : FetchErr) (d : Dev) : Bool :=
  match e with
  | .entries q => d.mainUp && d.lwd.st == .active && d.sealed && (d.queue? q).any d.fetchable
  | .chunk n k received fs =>
    dueChunk n k fs d && (d.pic? n k).any fun p => decide (received < p.bytes)
  | .evidence q =>
    d.mainUp && (d.queue? q).any (fun x => x.st == .enabled && x.type == 3 && 0 < x.avail && d.mayRequest x.fn) &&
    (d.wantsBuffer q).isSome

/-- What a fetch error does (R450). -/
def Dev.fetchError (d : Dev) (e : FetchErr) : Dev :=
  match e with
  | .entries q =>
    match d.queue? q with
    | some x => (d.modQueue q fun x => { x with st := .error }).fetchFails x.fn 2 q 0
    | none => d
  | .chunk n k received fs =>
    let fn := ((d.stream? n).map (·.fn)).getD 0
    let q := ((d.stream? n).bind (·.bound)).getD 0
    ((d.chunkFetched n k fs).modPic n (k + (fs.length - 1)) fun p => { p with cut := some received }).fetchFails fn 3 q n
  | .evidence q =>
    match d.queue? q, d.wantsBuffer q with
    | some x, some c => ((d.modQueue q fun x => { x with st := .error }).fetchFails x.fn 4 q 0).stallClip c
    | _, _ => d

/-! ### Depot grants (R385 to R387, R390) -/

/-- The request an allocation answers, with its depots; none where nothing of the kind waits (R390). -/
def Dev.grant (d : Dev) (depot : Nat) (w : Want) : Option Dev :=
  match w with
  | .pass seq =>
    match d.video.passes.find? fun x => x.seq == seq && x.inBuf.isNone with
    | some x =>
      let p := d.passPart x
      if depot == inputDepot p || depot == outputDepot p then d.grantPass x else none
    | none => none
  | .crop seq =>
    match d.video.cropTasks.find? fun t => t.seq == seq && t.dstBuf.isNone with
    | some t => if depot == inputDepot t.part then d.grantCrop t else none
    | none => none
  | .gather step =>
    match d.trk.steps.find? (·.id == step) with
    | some s => if depot == inputDepot s.part || depot == outputDepot s.part then d.issueJob step else none
    | none => none
  | .none => none

/-- The tracker stage wants buffers of partition `p` and can have them (R390, R394). -/
def Dev.trackerClaims (d : Dev) (p : Nat) : Bool :=
  d.video.cropTasks.any (fun t => t.part == p && t.dstBuf.isNone && (d.grantCrop t).isSome) ||
  d.trk.steps.any fun s => s.part == p && (d.issueJob s.id).isSome

/-- The tracker stage, then an earlier pass that waits for the same partition's buffers, has the first claim (R132, R394). -/
def Dev.firstClaim (d : Dev) (w : Want) : Bool :=
  match w with
  | .pass seq =>
    match d.video.passes.find? (·.seq == seq) with
    | some x => !d.trackerClaims (d.passPart x) && !d.video.passes.any fun y =>
        y.seq < seq && y.inBuf.isNone && d.passValid y && d.passPart y == d.passPart x
    | none => false
  | _ => true

/-- DEPOT_ALLOCATE is due: a grant can be made, or a header is found wrong (R386). -/
def dueAllocate (depot : Nat) (w : Want) (tagBad : Bool) (d : Dev) : Bool :=
  d.mainUp &&
  match d.depot? depot with
  | some x =>
    !x.isOverflow && !x.rebuild &&
    (if tagBad then !x.free.isEmpty else d.firstClaim w && (d.grant depot w).isSome)
  | none => false

/-- DEPOT_ALLOCATE's effect: the buffer is granted, or the depot's free list is rebuilt (R385, R386). -/
def Dev.depotAllocate (d : Dev) (depot : Nat) (w : Want) (tagBad : Bool) : Dev :=
  if tagBad then d.tagError depot else (d.grant depot w).getD d

/-- FREE_LIST_REBUILD_DONE is due. -/
def dueRebuilt (depot : Nat) (d : Dev) : Bool := d.mainUp && (d.depot? depot).any (·.rebuild)

/-- The rebuilt list holds the buffers that are not in use, in ascending order (R386). -/
def Depot.rebuilt (x : Depot) : Depot :=
  { x with rebuild := false, free := (upTo x.count).filter fun i => !x.held.any (·.1 == i) }

/-! ### Table bases (R92, R119, R137, R458) -/

/-- The bits of a table's base register: 64 B aligned offsets, 128 B aligned ones of the route table. -/
def tableMask (t : Nat) : Nat := if t = 0 then 2 ^ 48 - 64 else if t = 3 then 2 ^ 64 - 128 else 2 ^ 64 - 64

/-- The register of table `t`: queue descriptors, streams, encode contexts, routes (R422). -/
def Fn.tableBase (x : Fn) (t : Nat) : Nat :=
  match t with
  | 0 => x.qdBase
  | 1 => x.vdecBase
  | 2 => x.vencBase
  | _ => x.preBase

def Fn.setTableBase (x : Fn) (t v : Nat) : Fn :=
  match t with
  | 0 => { x with qdBase := v }
  | 1 => { x with vdecBase := v }
  | 2 => { x with vencBase := v }
  | _ => { x with preBase := v }

/-- A base register is not written while its table is in use: a queue enabled, a stream open, a clip open, a route bound. -/
def Dev.tableInUse (d : Dev) (f t : Nat) : Bool :=
  match t with
  | 0 => d.queues.any fun x => x.fn == f && x.st == .enabled
  | 1 => d.video.streams.any (·.fn == f)
  | 2 => d.video.clips.any fun c => c.fn == f && c.ended.isNone
  | _ => d.video.routes.any fun r => r.fn == f && r.bound

/-- A write of a table's base register: the table's contents there go to the mirror (R422). -/
def Dev.writeTable (d : Dev) (f t : Nat) (h : Half) (v : Nat) : Dev :=
  if 4 ≤ t || d.tableInUse f t then d
  else
    let b := rwWrite h (tableMask t) ((d.fn f).tableBase t) v
    d.moveTable f t b fun x => x.setTableBase t b

/-! ### The error log (R463) -/

/-- HIF_ERROR_LOG as it reads: the half of the oldest error that a read has taken is clear (R11). -/
def Fn.errorWord (x : Fn) : Nat :=
  match x.errLog with
  | [] => b2n x.errOverflow * 2 ^ 62
  | e :: _ => leftOf x.errRead (e + 2 ^ 63) + b2n x.errOverflow * 2 ^ 62

/-- A read clears what it returns (R10, R11): an error goes once both its halves are read. -/
def Fn.errorTaken (x : Fn) (h : Half) : Fn :=
  let r := readBoth x.errRead h
  { x with errLog := if r.isNone then x.errLog.drop 1 else x.errLog, errRead := if x.errLog.isEmpty then none else r
           errOverflow := x.errOverflow && h == .low }

/-! ### BAR2 (R438 to R441) -/

/-- Where a byte of a function's BAR2 lies. -/
inductive BarByte where
  | common (off : Nat)
  | part (p off : Nat)
  | staging (off : Nat)
  deriving DecidableEq, Repr

/-- Bytes of an aperture. -/
def apertureSize : Nat := 16 * 2 ^ 30

/-- The place of a byte of BAR2; none where the access is denied (R438 to R440). -/
def Dev.barByte (d : Dev) (f addr : Nat) : Option BarByte :=
  let k := addr / apertureSize
  if (if f = 0 then 4 else 1) ≤ k then none
  else
    let a := ((d.fn f).apertures[k]?).getD 0
    let off := bits a 30 18 * 2 ^ 30 + addr % apertureSize
    let avail := d.sealed && d.mem.open_
    match bits a 0 2 with
    | 1 => if avail && off < (d.commonGrant f).2 then some (.common off) else none
    | 2 =>
      match d.part? (bits a 2 3) with
      | some p => if avail && p.owner == f && off < p.granted then some (.part p.id off) else none
      | none => none
    | 3 => if f = 0 && off < 2 ^ 20 then some (.staging off) else none
    | _ => none

/-- The byte read at a place; a denied byte reads as 0. -/
def Dev.barRead (d : Dev) (f : Nat) : Option BarByte → List Byte
  | some (.common o) => d.commonRead f o 1
  | some (.part p o) => d.ownerRead p o 1
  | some (.staging o) => [memRead d.charter.staging o]
  | none => [0]

/-- A byte written at a place; a write into a resident manifest or its weights ends its residence (R361). -/
def Dev.barWrite (d : Dev) (f : Nat) (b : Byte) : Option BarByte → Dev
  | some (.common o) => d.commonWrite f o [b]
  | some (.part p o) => (d.ownerWrite p o [b]).endResidence p o (o + 1)
  | some (.staging o) => { d with charter := { d.charter with staging := memWrite d.charter.staging o b } }
  | none => d

/-- An access of which a byte is denied counts once (R440). -/
def Dev.countDenied (d : Dev) (f addr n : Nat) : Dev :=
  if (upTo n).all fun i => (d.barByte f (addr + i)).isSome then d
  else d.modFn f fun x => { x with bar2Denied := satAdd 64 x.bar2Denied 1 }

/-- BAR2 bytes of a function (R439). -/
def bar2Size (f : Nat) : Nat := if f = 0 then 4 * apertureSize else apertureSize

/-- The bytes of an access that lie in the function's BAR2: no request of the host reaches past its BAR (R436). -/
def bar2Span (f addr n : Nat) : Nat := min n (bar2Size f - addr)

/-- A BAR2 read completes with its bytes (R441). -/
def Dev.bar2Data (d : Dev) (f addr len : Nat) : Dev × List Byte :=
  let n := bar2Span f addr len
  (d.countDenied f addr n, (upTo n).flatMap fun i => d.barRead f (d.barByte f (addr + i)))

/-- A BAR2 write; one in a poisoned TLP is dropped and logged (R441, R456). -/
def Dev.bar2Put (d : Dev) (f addr : Nat) (data : List Byte) (poisoned : Bool) : Dev :=
  if poisoned then d.logError f 7 0 0
  else
    let d0 := d
    let bs := data.take (bar2Span f addr data.length)
    (List.zip (upTo bs.length) bs).foldl (fun d q => d.barWrite f q.2 (d0.barByte f (addr + q.1)))
      (d.countDenied f addr bs.length)

/-! ### Meanings -/

/-- SQ_FETCH (R447, R449). -/
def execSqFetch (queue : Nat) (entries : List (List Byte)) (s : State) : Host.Outcome State Fault Refusal :=
  whenDue "SQ_FETCH" (dueSqFetch queue entries s.dev) s fun d => d.sqFetch queue entries

/-- FETCH_COMPLETION_ERROR (R450). -/
def execFetchCompletionError (what : FetchErr) (s : State) : Host.Outcome State Fault Refusal :=
  whenDue "FETCH_COMPLETION_ERROR" (dueFetchError what s.dev) s fun d => d.fetchError what

/-- DEPOT_ALLOCATE (R385 to R387). -/
def execDepotAllocate (depot : Nat) (want : Want) (tagBad : Bool) (s : State) : Host.Outcome State Fault Refusal :=
  whenDue "DEPOT_ALLOCATE" (dueAllocate depot want tagBad s.dev) s fun d => d.depotAllocate depot want tagBad

/-- FREE_LIST_REBUILD_DONE (R386). -/
def execFreeListRebuildDone (depot : Nat) (s : State) : Host.Outcome State Fault Refusal :=
  whenDue "FREE_LIST_REBUILD_DONE" (dueRebuilt depot s.dev) s fun d => d.modDepot depot Depot.rebuilt

/-- TABLE_BASE_WRITE (R422). -/
def execTableBaseWrite (fn table : Nat) (half : Half) (value : Reg) (s : State) : Host.Outcome State Fault Refusal :=
  always s fun d => d.access fn .rest fun d => d.writeTable fn table half value.toNat

/-- ERROR_LOG_READ (R463). -/
def execErrorLogRead (fn : Nat) (half : Half) (s : State) : Host.Outcome State Fault Refusal :=
  always s fun d =>
    d.accessRead fn .rest (if half == .full then 8 else 4) fun d =>
      (d.modFn fn fun x => x.errorTaken half, halfRead half (d.fn fn).errorWord)

/-- BAR2_READ (R439 to R441). -/
def execBar2Read (fn addr len : Nat) (s : State) : Host.Outcome State Fault Refusal :=
  always s fun d => d.accessRead fn .rest len fun d => d.bar2Data fn addr len

/-- BAR2_WRITE (R439 to R441). -/
def execBar2Write (fn addr : Nat) (data : List Byte) (poisoned : Bool) (s : State) : Host.Outcome State Fault Refusal :=
  always s fun d => d.access fn .rest fun d => d.bar2Put fn addr data poisoned

end Sys2Proof.Machine
end

