-- ==== Sys2Proof/Machine/Replay.lean ====
section
/-! DEFINITION. Replay events of the matrix array (R55, R152, R157 to R159, R165), and the audit unit's muster and signing
(R332, R334 to R337, R342 to R344). -/

namespace Sys2Proof.Machine

/-! ### Replay -/

/-- The physical row of a logical row under a core's repair map (R151). -/
def Dev.physRow (d : Dev) (core row : Nat) : Nat :=
  let byp := (bypassRows ((d.sec.fused[core]?).getD []) (d.core core)).map (·.1)
  (((upTo 34).filter fun r => !byp.contains r)[row]?).getD row

/-- The schedule ck from which the replay of a word's failed verdicts holds the job back (R152, R157). -/
def pauseCk (f : ResidueFacts) : Nat := f.word + 38

/-- A failed row-step with whether it was injected. -/
abbrev FailedStep := BadStep × Bool

/-- The failed row-steps of one ck, injected ones first (R157, R165). -/
def failedSteps (injected : List Replay) (f : ResidueFacts) : List FailedStep :=
  injected.map (fun r => ({ row := r.row, column := r.column, error := 1, fails := r.fails }, true)) ++
  (f.rows.filter fun r => !injected.any (·.row == r.row)).map fun r => (r, false)

/-- Injected mismatches of a core slot whose verdicts take effect before a ck (R165). -/
def Ctx.injectedAt (x : Ctx) (slot ck : Nat) : List Replay := x.replays.filter fun r => r.slot == slot && r.ck == ck

/-- The facts name cells that made a residue check on a word of the core's array, changed by an amount the check detects
(R146, R152, R156), or only an injection; each word's verdict comes once. -/
def factsOk (r : CoreRun) (injected : List Replay) (f : ResidueFacts) : Bool :=
  (f.rows.all fun q => q.row < 32 && q.column < 64 && errorSeen q.error) &&
  (f.rows.map (·.row)).eraseDups.length == f.rows.length && r.judgedTo ≤ f.word &&
  (if f.rows.isEmpty then !injected.isEmpty
   else r.words.any fun w =>
     match w.plan.wordAt w.front f.word with
     | some kt => f.rows.all fun q => w.plan.checks kt.1 kt.2 q.row q.column
     | none => false)

/-- The array of a job that is being becalmed still completes the words it has issued: their verdicts come before the save
(R60, R160, R161). -/
def Dev.stopping (d : Dev) (x : Ctx) : Bool :=
  d.mainUp && d.clk.refPresent && d.clk.level < 64 && x.st == .running && !x.paused &&
  match x.lane with
  | some (.save _) => true
  | _ => false

/-- REPLAY_EVENT is due. -/
def dueReplay (core : Nat) (f : ResidueFacts) (d : Dev) : Bool :=
  match d.seat core with
  | some s =>
    let ck := pauseCk f
    factsOk s.k.run (s.x.injectedAt s.slot ck) f && s.x.replays.all (fun r => ck ≤ r.ck) &&
    ((d.flows s.x && s.x.now ≤ ck && d.reachAll s.x ck) || (d.stopping s.x && f.word ≤ s.x.now && s.x.now ≤ ck))
  | none => false

/-- Events that fit the reserve one after another: how many run, their ck in all, and whether one did not fit (R157). -/
def replayRun (used reserve : Nat) : List Nat → Nat × Nat × Bool
  | [] => (0, 0, false)
  | n :: ns =>
    if reserve < used + n then (0, 0, true)
    else
      let r := replayRun (used + n) reserve ns
      (r.1 + 1, r.2.1 + n, r.2.2)

/-- Events on one physical row whose self-tests all passed exhausted the reserve (R159). -/
def oneRow : List (Nat × Nat) → Option Nat
  | [] => none
  | e :: es => if e.2 = 1 ∧ es.all (fun q => q == e) then some e.1 else none

/-- A row becomes the core's suspect row, with its health record (R158). -/
def Dev.suspectRow (d : Dev) (core row job : Nat) : Dev :=
  (d.modCore core fun k => { k with suspect := some row }).health 0x01 1 (hUnit 1 core) job [core, row]

/-- The row-steps whose first `n` recomputes all fail. -/
def stillFailing (n : Nat) (steps : List FailedStep) : List FailedStep := steps.filter fun q => n ≤ q.1.fails

/-- The events row-steps start: the first, and one more for each round of recomputes that fails (R157). -/
def eventsOf (steps : List FailedStep) : List (List FailedStep) :=
  let again := steps.foldl (fun a q => max a q.1.fails) 0
  steps :: (upTo again).map fun n => stillFailing (n + 1) steps

/-- Length of an event over some row-steps (R157). -/
def eventCk (steps : List FailedStep) : Nat := 1040 + 8 * (steps.length - 1)

/-- What CORE_MXA_LAST_EVENT shows after `ran` events: kind and row-step (R164). A recompute that failed is later than the
self-tests of its own event, and earlier than those of the next. -/
def lastOf (evs : List (List FailedStep)) (ran : Nat) (bad : List Nat) : Nat × BadStep :=
  let none_ : FailedStep := ({ row := 0, column := 0, error := 0, fails := 0 }, false)
  let firstOf := fun (n : Nat) => (((evs[n]?).getD []).head?).getD none_
  let start := firstOf 0
  if ran = 0 then (if start.2 then 5 else 1, start.1)
  else if ran < evs.length then (2, (firstOf ran).1)
  else
    match ((evs[ran - 1]?).getD []).find? fun q => !q.2 && bad.contains q.1.row with
    | some q => (3, q.1)
    | none => if 2 ≤ ran then (2, (firstOf (ran - 1)).1) else (if start.2 then 5 else 1, start.1)

/-- The ck of an event before its recompute rereads the weight word (R157). -/
def rereadCk : Nat := 1028

/-- A replay event with the further events its failing recomputes start; without room in the reserve, or where the reread
meets an uncorrectable error, a reissue (R56, R57, R157 to R159, R250, R279). -/
def Dev.replay (d : Dev) (core : Nat) (f : ResidueFacts) : Dev :=
  match d.seat core with
  | none => d
  | some s =>
    let j := s.x.entry.id
    let ck := pauseCk f
    let inj := s.x.injectedAt s.slot ck
    let steps := failedSteps inj f
    let evs := eventsOf steps
    let run := replayRun s.x.replayCk s.x.mf.reserve (evs.map eventCk)
    let lost := f.uncorrectable && run.1 != 0
    let ran := if lost then 1 else run.1
    let ran_ck := if lost then rereadCk else run.2.1
    let bad := if ran = 0 then [] else f.selfTestBad.filter fun r => steps.any fun q => q.1.row == r && !q.2
    let d := if s.x.lane.isSome then d else d.advance j (ck - 1)
    let failed := sum ((evs.take (if lost then 1 else ran + 1)).map (·.length))
    let last := if lost then (if bad.isEmpty then lastOf evs 0 [] else lastOf [steps] 1 bad) else lastOf evs ran bad
    let spent := steps.map fun q => (d.physRow core q.1.row, b2n (!q.2 && !bad.contains q.1.row))
    let d := d.modCore core fun k => { k with
      residue := satAdd 64 k.residue failed, replays := satAdd 64 k.replays ran
      replayCk := satAdd 64 k.replayCk ran_ck
      lastEvent := { kind := last.1, phys := d.physRow core last.2.row, row := last.2.row, column := last.2.column, job := j }
      run := { k.run with judgedTo := f.word + 1 } }
    let d := d.life 5 ran
    let d := d.modCtx j fun x => { x with
      now := if x.lane.isSome then x.now else ck
      replays := x.replays.filter fun r => !(r.slot == s.slot && r.ck == ck)
      replayCk := x.replayCk + ran_ck
      pauses := if ran_ck = 0 then x.pauses else x.pauses ++ [(ck, ran_ck)]
      spent := if ran = 0 then x.spent else x.spent ++ spent }
    let d := bad.foldl (fun d r => d.suspectRow core (d.physRow core r) j) d
    if lost then d.eccReissue j core
    else if run.2.2 then
      let d := match d.ctx? j with
        | some x =>
          match oneRow (x.spent ++ spent), x.spent with
          | some row, _ :: _ => d.suspectRow core row j
          | _, _ => d
        | none => d
      d.reissue j
    else d.modCtx j fun x => { x with paused := true }

/-- REPLAY_EVENT (R157). -/
def execReplayEvent (core : Nat) (facts : ResidueFacts) (s : State) : Host.Outcome State Fault Refusal :=
  whenDue "REPLAY_EVENT" (dueReplay core facts s.dev) s fun d => d.replay core facts

/-- REPLAY_RESUME is due: a replay event is under way, and the core clock runs (R157, R161). -/
def dueResume (job : Nat) (d : Dev) : Bool :=
  match d.ctx? job with
  | some x => d.mainUp && d.clk.refPresent && decide (d.clk.level < 64) && x.paused
  | none => false

/-- The schedule resumes; a save that waited for the replay joins the lane, or begins (R60, R161). -/
def Dev.resumeReplay (d : Dev) (job : Nat) : Dev :=
  match d.ctx? job with
  | none => d
  | some x =>
    let d := d.modCtx job fun y => { y with paused := false }
    match x.lane with
    | some (.save _) =>
      if d.mem.laneBusy == some job then { d with mem := { d.mem with laneStart := max d.mem.laneStart d.ticks } }
      else if d.mem.laneQueue.contains job then d
      else d.laneJoin job
    | _ => d

/-- REPLAY_RESUME (R157). -/
def execReplayResume (job : Nat) (s : State) : Host.Outcome State Fault Refusal :=
  whenDue "REPLAY_RESUME" (dueResume job s.dev) s fun d => d.resumeReplay job

/-! ### Waybill signing -/

/-- WAYBILL_SIGNED is due: an entry waits, and ST2 runs (R332, R505). -/
def dueSigned (d : Dev) : Bool := d.mainUp && !d.dau.signQueue.isEmpty && !d.sec.down.contains 2

/-- The oldest waiting entry is written: signed, or as one that a reset takes from the queue (R332, R338). -/
def Dev.signOne (d : Dev) (signed : Bool) : Dev :=
  match d.dau.signQueue with
  | [] => d
  | r :: rs =>
    let d : Dev := { d with dau := { d.dau with signQueue := rs } }
    let sig := ecdsaSign (akOf ((d.sec.running.map (·.hash)).getD [])) r.body
    match d.part? r.part with
    | some p => d.wbWrite p r.seq (wbBody r.addr r.seq (if signed then 1 else 2) (sha384 r.body) r.body (if signed then sig else []))
    | none => d

/-- WAYBILL_SIGNED (R332). -/
def execWaybillSigned (s : State) : Host.Outcome State Fault Refusal :=
  whenDue "WAYBILL_SIGNED" (dueSigned s.dev) s fun d => (d.signOne true).life 8 1

/-- Entries of a function's partitions leave the signing queue unsigned and are counted (R338). -/
def Dev.dropSigns (d : Dev) (f : Nat) : Dev :=
  let mine := fun (r : SignReq) => r.fn == f
  let keep := d.dau.signQueue.filter fun r => !mine r
  let go := d.dau.signQueue.filter mine
  let d : Dev := { d with dau := { d.dau with signQueue := go } }
  let d := go.foldl (fun d _ => d.signOne false) d
  { d with dau := { d.dau with signQueue := keep, signSkipped := satAdd 64 d.dau.signSkipped go.length } }

/-! ### Muster -/

/-- RW fields of DAU_MUSTER_CTL: ARM, SOURCE, SAMPLE_EDGES, OFFSET, EPOCH (R342). -/
def musterMask : Nat := 0xFFFFFFFFFFFFFF3B

/-- A write of DAU_MUSTER_CTL (R334, R342). FIRE launches only with SOURCE set. -/
def Dev.musterCtl (d : Dev) (h : Half) (v : Nat) : Dev :=
  let ctl := rwWrite h musterMask d.dau.ctl v
  let fire := halfHits h 0 && bitAt (halfPlace h v) 2
  let ctl := if (fire || bitAt d.dau.ctl 2) && bitAt ctl 1 then orBit ctl 2 else ctl
  { d with dau := { d.dau with ctl := ctl,
                               armTick := if halfHits h 0 && bitAt (halfPlace h v) 0 then d.ticks else d.dau.armTick } }

/-- MUSTER_ARM (R334, R342). -/
def execMusterArm (value : Reg) (s : State) : Host.Outcome State Fault Refusal :=
  always s fun d => d.access 0 .rest fun d => d.musterCtl .full value.toNat

/-- MUSTER_FIRE is due: FIRE is set on a source, at a reference edge (R342). -/
def dueFire (d : Dev) : Bool := d.mainUp && d.clk.refPresent && bitAt d.dau.ctl 2 && bitAt d.dau.ctl 1

/-- MUSTER_FIRE (R342). -/
def execMusterFire (s : State) : Host.Outcome State Fault Refusal :=
  whenDue "MUSTER_FIRE" (dueFire s.dev) s fun d =>
    ({ d with dau := { d.dau with ctl := d.dau.ctl - 4 } } : Dev).emit .musterOut

/-- OFFSET as it acts (R342). -/
def Dau.offset (u : Dau) : Nat := max 2048 (bits u.ctl 8 24)

/-- A pulse within 100 ns of the one before is ignored (R334). -/
def Dau.ignores (u : Dau) (now : Nat) : Bool :=
  match u.lastPulse with
  | some t => decide (now < t + 520)
  | none => false

/-- Reference edges from the edge that launches a pulse to the edge that samples it (R334, R342). -/
def Dau.sampleEdges (u : Dau) : Nat :=
  let n := bits u.ctl 3 3
  if 1 ≤ n ∧ n ≤ 4 then n else 1

/-- A reference period, in ps. -/
def refPs : Nat := 10000

/-- ARM stands for a pulse at `now`: it was not written in the reference period of the pulse (R338). -/
def Dau.armed (u : Dau) (now : Nat) : Bool := bitAt u.ctl 0 && decide (u.armTick + 52 ≤ now)

/-- A sampled pulse (R334 to R336, R338), with the core clock's count `ck`: ARM written in the reference period of the pulse
comes too late. A start point that has passed stays the last one until the new one comes. -/
def Dau.pulse (u : Dau) (now ck arrivalPs phasePs : Nat) : Dau :=
  let u := { u with
    lastPulse := some now, arrival := min arrivalPs 65535, phase := phasePs % 65536
    marginLow := u.marginLow || decide (arrivalPs < 2000) }
  if u.armed now then
    { u with ctl := u.ctl - 1, epoch := bits u.ctl 32 32, startTick := some (now + ckTicks * u.offset),
             startCk := some (ck + ckUnits * u.offset)
             lastCk := if u.startCk.any (· ≤ ck) then u.startCk else u.lastCk }
  else { u with missed := true }

/-- MUSTER_PULSE (R334). -/
def execMusterPulse (arrivalPs phasePs : Nat) (s : State) : Host.Outcome State Fault Refusal :=
  whenDue "MUSTER_PULSE"
    (s.dev.mainUp && s.dev.clk.refPresent && decide (arrivalPs ≤ refPs * s.dev.dau.sampleEdges)) s fun d =>
    if d.dau.ignores d.ticks then d
    else
      ({ d with dau := d.dau.pulse d.ticks d.coreRun arrivalPs phasePs } : Dev).fireAll
        ((if arrivalPs < 2000 then [.marginLow] else []) ++ if d.dau.armed d.ticks then [] else [.missed])

/-- The ck since the last start point that has passed: DAU_MUSTER_CK (R335, R339). -/
def Dev.musterCk (d : Dev) : Nat :=
  match (if d.dau.startCk.any (· ≤ d.coreRun) then d.dau.startCk else d.dau.lastCk) with
  | some t => (d.coreRun - t) / ckUnits
  | none => 0

/-- A report of a replay disagreement (R337). -/
def Dev.mismatch (d : Dev) (job : Nat) : Dev :=
  ({ d with dau := { d.dau with mismatches := satAdd 64 d.dau.mismatches 1 } } : Dev).health 0x0E 2 (hUnit 0 0)
    (job % 2 ^ 32) []

/-- MISMATCH_REPORT (R337). -/
def execMismatchReport (value : Reg) (s : State) : Host.Outcome State Fault Refusal :=
  always s fun d => d.access 0 .rest fun d => d.mismatch value.toNat

end Sys2Proof.Machine
end

