-- ==== Sys2Proof/Machine/HostLink.lean ====
section
/-! DEFINITION. The link, functions and their resets: link training and power (R431, R455), SR-IOV (R433, R434), power
states (R435), Bus Master Enable (R374), function-level reset (R375, R434, R549), invalidations (R454), and the verdict
port's lane (R319, R535, R537). -/

namespace Sys2Proof.Machine

/-! ### Bus Master Enable and D3hot (R374, R435) -/

/-- Requests of a function resume where nothing else stops them: becalmed contexts, held records, staged output, pending
messages, in this order (R374). -/
def Dev.resumeRequests (d : Dev) (f : Nat) : Dev :=
  if !d.mayRequest f then d
  else
    let d := d.resumeCtxs f
    let d := (d.fn f).overflow.foldl (fun d r => Dev.drainOverflow r.queue 1 d) d
    let clips := (d.video.clips.filter fun c => c.fn == f).map (·.id)
    (clips.foldl (fun d c => d.pushClip c) d).flushPending f

/-- Bus Master Enable is cleared (R374). -/
def Dev.bmeOff (d : Dev) (f : Nat) : Dev := (d.modFn f fun x => { x with bme := false }).stopCtxs f

/-- Bus Master Enable is set. -/
def Dev.bmeOn (d : Dev) (f : Nat) : Dev := (d.modFn f fun x => { x with bme := true }).resumeRequests f

/-- D3hot is entered: the function behaves as with both enables clear (R435). -/
def Dev.enterD3 (d : Dev) (f : Nat) : Dev := (d.modFn f fun x => { x with d3 := true }).stopCtxs f

/-- The function returns to D0 with its state kept (R435). -/
def Dev.leaveD3 (d : Dev) (f : Nat) : Dev := (d.modFn f fun x => { x with d3 := false }).resumeRequests f

/-! ### Function-level reset (R375, R549) -/

/-- Records of a function that are pending beyond its JOB records: due, overflowed, of pictures gone forward, and staged
evidence (R28, R118, R375). -/
def Dev.pendingRecords (d : Dev) (f : Nat) : Nat :=
  (d.due.filter (·.fn == f)).length + (d.fn f).overflow.length +
  sum ((d.video.streams.filter (·.fn == f)).map fun s => sum (s.pics.map fun p => p.recordsDue.length)) +
  sum ((d.video.clips.filter (·.fn == f)).map fun c => c.staging.length)

/-- The crop tasks of a function go; the ck a unit spent on one count (R238, R241). -/
def Dev.dropCrops (d : Dev) (f : Nat) : Dev :=
  let cut := d.video.cropTasks.filter fun t => t.fn == f && t.running
  let d := cut.foldl (fun d t => match t.unit with
    | some u => d.modVideo fun v => { v with
        cru := modAt (fun x => { x with busyCk := satAdd 64 x.busyCk (d.cropSoFar t) }) u v.cru }
    | none => d) d
  d.modVideo fun v => { v with cropTasks := v.cropTasks.filter fun t => t.fn != f }

/-- Passes, crop tasks, steps and outcomes of a function go; their units stop (R136, R238, R313). -/
def Dev.dropPasses (d : Dev) (f : Nat) : Dev :=
  let mine := fun (n : Nat) => (d.stream? n).any (·.fn == f)
  let gone := (d.video.passes.filter fun x => mine x.stream).map (·.seq)
  let d := (d.modVideo fun v => { v with
    passes := v.passes.filter fun x => !gone.contains x.seq
    psc := v.psc.map fun u =>
      if (u.pass.map gone.contains).getD false then u.freed (d.passSoFar u) else u }).dropCrops f
  { d with trk := { d.trk with
      results := d.trk.results.filter fun r => r.fn != f
      steps := d.trk.steps.filter fun s => s.fn != f } }

/-- The clips of a function end at once (R118). -/
def Dev.dropClips (d : Dev) (f : Nat) : Dev :=
  let gone := (d.video.clips.filter fun c => c.fn == f).map (·.id)
  let d := d.modVideo fun v => { v with
    clips := v.clips.filter fun c => c.fn != f
    venc := v.venc.map fun e =>
      if (e.job.map fun j => gone.contains j.1).getD false then d.vencFreed e else e }
  gone.foldl (fun d c => d.freeOwner encodeDepot c) d

/-- The streams of a function close at once without going forward: engines, copier, track sets, buffers (R91, R313). -/
def Dev.dropStreams (d : Dev) (f : Nat) : Dev :=
  let gone := d.video.streams.filter fun s => s.fn == f
  let ids := gone.map (·.id)
  let first := d.video.copier.head?
  let d := d.modVideo fun v => { v with
    vdec := v.vdec.map fun e =>
      if (e.job.map fun j => ids.contains j.1).getD false then
        let vk := d.decodeSoFar e
        { e with job := none, decodeVk := vk, busyVk := satAdd 64 e.busyVk vk }
      else e
    copier := v.copier.filter fun c => !ids.contains c.1 }
  let d := ids.foldl (fun d n => d.dropSets true n) d
  let d := gone.foldl (fun d s => d.commonWrite s.fn (d.streamEntry s.fn s.id + 0x20) (s.statusWords false)) d
  let frames := d.video.frames.filter fun x => ids.contains x.stream
  let d := d.modVideo fun v => { v with
    frames := v.frames.filter fun x => !ids.contains x.stream
    streams := v.streams.filter fun s => s.fn != f }
  let d := frames.foldl (fun d x => d.freeBuf (videoDepot x.cls) x.ix) d
  let d := gone.foldl (fun d s =>
    d.modDepot (videoDepot s.cls) fun x => { x with res := x.res.filter fun r => r.1 != s.id }) d
  if d.video.copier.head? == first then d else d.startCopy

/-- Every buffer of the depots of a partition returns; its stages' reservations stay (R375, R388). -/
def Dev.returnBuffers (d : Dev) (p : Nat) : Dev :=
  [inputDepot p, outputDepot p, trackerDepot p].foldl (fun d id =>
    match d.depot? id with
    | some x => d.putDepot (x.held.foldl (fun (x : Depot) h => x.give h.1) x)
    | none => d) d

/-- The registers of a partition at their reset values: DSP_P but CONFIG, DAU_P, MEM_P_FORCED (R549). -/
def Part.flr (p : Part) : Part :=
  { p with faultRing := 0, slipRing := 0, save := 0, overwrite := 0, dauCtl := 0, wbRing := 0, dgRing := 0,
           dauOverwrite := 0, faultWrites := 0, slipWrites := 0, wbHeld := [], dgHeld := [], forced := 0 }

/-- A function at its reset values; DSP_F_FLR_DISCARD and GLB_SCRATCH stay (R549). -/
def Fn.flr (x : Fn) : Fn :=
  { Fn.reset x.id with present := x.present, scratch := x.scratch, dspCnt := [0, 0, 0, 0, (x.dspCnt[4]?).getD 0] }

/-- An FLR of one function (R375, R549). -/
def Dev.flrOne (d : Dev) (f : Nat) : Dev :=
  let n := d.pendingRecords f
  let d := d.modFn f fun x => { x with bme := false, dspCnt := bump 4 n x.dspCnt }
  let d := (d.dropSigns f).dropWork f
  let d := ((d.dropPasses f).dropClips f).dropStreams f
  let owned := (d.parts.filter fun p => p.defined && p.owner == f).map (·.id)
  let d := owned.foldl (fun d p => (d.returnBuffers p).modPart p Part.flr) d
  let d : Dev := match d.depot? (overflowDepot f) with
    | some x => d.putDepot { x with records := 0 }
    | none => d
  let mine := (d.queues.filter fun x => x.fn == f).map (·.id)
  let d : Dev := { d with
    due := d.due.filter fun r => r.fn != f
    queues :=
      modIf (fun (x : Queue) => x.fn == f) (fun x => { x with st := .disabled, disabling := false, waits := none }) d.queues
    link := { d.link with
      credits := d.link.credits.filter fun c => !mine.contains c.1
      ats := d.link.ats.filter fun a => a.1 != f } }
  let d := d.modVideo fun v => { v with routes := v.routes.filter fun r => r.fn != f }
  let d := d.modFn f Fn.flr
  (upTo 4).foldl (fun d t => d.moveTable f t 0 fun x => x) d

/-- The VFs that exist. -/
def Dev.vfs (d : Dev) : List Nat := ((upTo 7).filter fun f => f != 0 && (d.fn f).present)

/-- VF Enable is cleared: an FLR of every VF, and none exists any more (R433, R434). -/
def Dev.vfsOff (d : Dev) : Dev :=
  d.vfs.foldl (fun d f => (d.flrOne f).modFn f fun x => { x with present := false }) d

/-- An FLR of a function; of the PF it takes the VFs too (R434). -/
def Dev.flr (d : Dev) (f : Nat) : Dev := if f = 0 then (d.flrOne 0).vfsOff else d.flrOne f

/-- VF Enable is set with NumVFs (R433). -/
def Dev.vfsOn (d : Dev) (n : Nat) : Dev :=
  if d.vfs.isEmpty then
    (upTo 7).foldl (fun d f => if 1 ≤ f ∧ f ≤ n then d.modFn f fun x => { x with present := true } else d) d
  else d

/-! ### The link (R429, R431, R455) -/

/-- A speed and width the link can train to (R429, R431). -/
def linkRate (speed width : Nat) (flit : Bool) : Bool :=
  1 ≤ speed && speed ≤ 6 && 1 ≤ width && width ≤ 16 && (speed != 6 || flit)

/-- The link has trained (R431, R459). -/
def Dev.linkUp (d : Dev) (speed width : Nat) (flit : Bool) : Dev :=
  let low := decide (speed < 4) || decide (width < 8)
  let d : Dev := { d with link := { d.link with
    speed := speed, width := width, l0pLanes := width, flit := flit, degraded := low, ltssm := 2 } }
  if low && d.boot == .done then d.health 0x09 1 (hUnit 0 0) 0 [] else d

/-- The link has gone down: an FLR of the PF, and nothing of the negotiation stands (R434). -/
def Dev.linkDown (d : Dev) : Dev :=
  let d := d.flr 0
  { d with link := { d.link with speed := 0, width := 0, l0pLanes := 0, flit := false, degraded := false, ltssm := 0 } }

/-- Nothing of the device waits to use the link (R455). -/
def Dev.linkIdle (d : Dev) : Bool :=
  d.due.isEmpty &&
  d.queues.all (fun x => x.st != .enabled || x.type == 4 || x.avail == 0) &&
  d.fns.all (fun x => x.overflow.isEmpty && (x.pba.isEmpty || !d.mayRequest x.id)) &&
  d.sec.cmd.isNone && d.video.streams.all fun s => s.pics.all fun p => !(p.phase == .fetching && p.begun)

/-- The lanes L0P_WIDTH names (R459). -/
def Link.narrow (l : Link) : Nat :=
  match bits l.powerCtl 17 3 with
  | 2 => 4
  | 3 => 2
  | _ => 8

/-- L1_ENTRY is due: the device is idle on a link in L0 or L0p (R455). That ASPM L1 is enabled, and that L1_IDLE_US has
passed without a TLP, the event itself says. -/
def dueL1 (d : Dev) : Bool := (d.link.ltssm == 2 || d.link.ltssm == 3) && d.linkIdle

/-- L0P_NARROW is due: L0P_ENABLE is set, and the link is wider than L0P_WIDTH (R455). -/
def dueL0p (d : Dev) : Bool := d.link.ltssm == 2 && bitAt d.link.powerCtl 16 && decide (d.link.narrow < d.link.l0pLanes)

/-- Removes the entries of a page of a function (R454). -/
def Link.invalidate (l : Link) (f page : Nat) : Link := { l with ats := l.ats.filter fun a => !(a.1 == f && a.2 == page) }

/-! ### Meanings -/

/-- PCIE_LINK_UP (R431). -/
def execPcieLinkUp (speed width : Nat) (flit : Bool) (s : State) : Host.Outcome State Fault Refusal :=
  whenDue "PCIE_LINK_UP" (s.dev.boot != .held && !s.dev.pins.perst && s.dev.link.ltssm == 0 && linkRate speed width flit) s
    fun d => d.linkUp speed width flit

/-- LINK_DOWN (R434). -/
def execLinkDown (s : State) : Host.Outcome State Fault Refusal :=
  whenDue "LINK_DOWN" (s.dev.link.ltssm != 0) s Dev.linkDown

/-- HOT_RESET (R434). -/
def execHotReset (s : State) : Host.Outcome State Fault Refusal :=
  whenDue "HOT_RESET" (s.dev.link.ltssm != 0) s fun d => d.wakeLink.flr 0

/-- L1_ENTRY (R455). -/
def execL1Entry (s : State) : Host.Outcome State Fault Refusal :=
  whenDue "L1_ENTRY" (dueL1 s.dev) s fun d =>
    let d := d.emit .requestL1
    { d with link := { d.link with ltssm := 4 } }

/-- L0P_NARROW (R455). -/
def execL0pNarrow (s : State) : Host.Outcome State Fault Refusal :=
  whenDue "L0P_NARROW" (dueL0p s.dev) s fun d =>
    { d with link := { d.link with l0pLanes := d.link.narrow, ltssm := 3 } }

/-- VF_ENABLE_SET (R433). -/
def execVfEnableSet (count : Nat) (s : State) : Host.Outcome State Fault Refusal :=
  always s fun d => d.config 0 fun d => d.vfsOn count

/-- VF_ENABLE_CLEAR (R434). -/
def execVfEnableClear (s : State) : Host.Outcome State Fault Refusal :=
  always s fun d => d.config 0 Dev.vfsOff

/-- FLR (R375). -/
def execFlr (fn : Nat) (s : State) : Host.Outcome State Fault Refusal :=
  always s fun d => d.config fn fun d => d.flr fn

/-- D3HOT_ENTRY (R435). -/
def execD3hotEntry (fn : Nat) (s : State) : Host.Outcome State Fault Refusal :=
  always s fun d => d.config fn fun d => d.enterD3 fn

/-- D3HOT_EXIT (R435). -/
def execD3hotExit (fn : Nat) (s : State) : Host.Outcome State Fault Refusal :=
  always s fun d => d.config fn fun d => d.leaveD3 fn

/-- BME_CLEAR (R374). -/
def execBmeClear (fn : Nat) (s : State) : Host.Outcome State Fault Refusal :=
  always s fun d => d.config fn fun d => d.bmeOff fn

/-- BME_SET (R374). -/
def execBmeSet (fn : Nat) (s : State) : Host.Outcome State Fault Refusal :=
  always s fun d => d.config fn fun d => d.bmeOn fn

/-- MEMORY_SPACE_ENABLE_WRITE (R434, R456). -/
def execMemorySpaceEnableWrite (fn : Nat) (on : Bool) (s : State) : Host.Outcome State Fault Refusal :=
  always s fun d => d.config fn fun d => d.modFn fn fun x => { x with mse := on }

/-- ATS_INVALIDATE (R454). -/
def execAtsInvalidate (fn tag page : Nat) (s : State) : Host.Outcome State Fault Refusal :=
  always s fun d => d.config fn fun d =>
    ({ d with link := d.link.invalidate fn page } : Dev).emit (.invalidated fn tag)

/-- VERDICT_LINK_UP (R319): a module is present, and the leeward domain runs. -/
def execVerdictLinkUp (fecDegraded : Bool) (s : State) : Host.Outcome State Fault Refusal :=
  whenDue "VERDICT_LINK_UP"
    (s.dev.pins.leewardRail && !s.dev.pins.ethModAbs && !s.dev.vpt.linkUp) s fun d =>
    { d with vpt := { d.vpt with linkUp := true, fecDegraded := fecDegraded } }

/-- VERDICT_LINK_DOWN (R535). -/
def execVerdictLinkDown (s : State) : Host.Outcome State Fault Refusal :=
  whenDue "VERDICT_LINK_DOWN" s.dev.vpt.linkUp s fun d =>
    { d with vpt := { d.vpt with linkUp := false, fecDegraded := false } }

/-- ETH_MOD_ABS_CHANGE (R537): while it is high the lane stays idle. -/
def execEthModAbsChange (high : Bool) (s : State) : Host.Outcome State Fault Refusal :=
  whenDue "ETH_MOD_ABS_CHANGE" (s.dev.pins.ethModAbs != high) s fun d =>
    { d with pins := { d.pins with ethModAbs := high },
             vpt := if high then { d.vpt with linkUp := false, fecDegraded := false } else d.vpt }

end Sys2Proof.Machine
end

