-- ==== Sys2Proof/Machine/Lulls.lean ====
section
/-! DEFINITION. Refresh and retraining lulls of the memory's owners, row repair and channel migration (R46, R415 to R419,
R424 to R426), and the lulls that a wake ends with (R472). -/

namespace Sys2Proof.Machine

/-! ### Owners -/

/-- The retraining state of an owner: a partition, or the common pool. -/
def Dev.retrainOf (d : Dev) (o : Nat) : Retrain :=
  if o = commonOwner then d.mem.commonRetrain else ((d.part? o).map (·.retrain)).getD Retrain.reset

/-- The device with the retraining state of an owner changed. -/
def Dev.modRetrain (d : Dev) (o : Nat) (f : Retrain → Retrain) : Dev :=
  if o = commonOwner then { d with mem := { d.mem with commonRetrain := f d.mem.commonRetrain } }
  else d.modPart o fun p => { p with retrain := f p.retrain }

/-- The owner exists: SEAL gives it its pseudo-channels and starts its lulls (R348, R407, R426). -/
def Dev.isOwner (d : Dev) (o : Nat) : Bool :=
  d.mainUp && d.sealed && (o == commonOwner || (d.part? o).isSome)

/-- RETRAIN_MS and FORCE_MS of the sealed charter in ticks (R419). -/
def Dev.retrainPeriod (d : Dev) : Nat := ((d.charter.cur.map (·.retrainMs)).getD 20) * msTicks
def Dev.forcePeriod (d : Dev) : Nat := ((d.charter.cur.map (·.forceMs)).getD 80) * msTicks

/-- A dispatch gap of a partition: no context runs and none of its cores has a transfer in flight, issued and not yet
released; for the common pool, an idle save lane (R417, R418). -/
def Dev.gap (d : Dev) (o : Nat) : Bool :=
  if o = commonOwner then d.mem.laneBusy.isNone
  else
    match d.part? o with
    | some p =>
      (d.partCtxs o).all (fun x => x.st != .running) && p.cores.all fun c => (d.core c).run.queue.isEmpty
    | none => false

/-! ### Refresh (R415) -/

/-- Period of refresh lulls in ticks. -/
def refreshPeriod : Nat := 5070 * mkTicks

/-- A stack of the owner is above 85 °C. -/
def Dev.hot (d : Dev) (o : Nat) : Bool := (d.pcs o).any fun pc => ((d.mem.mcs[pc / 32]?).getD Mc.reset).temp > 85

/-- Length of an owner's refresh lulls in ticks. -/
def Dev.refreshTicks (d : Dev) (o : Nat) : Nat := (if d.hot o then 180 else 120) * mkTicks

/-- The next point of the owner's refresh grid after now; its phase stays as SEAL fixed it. -/
def nextPoint (point now : Nat) : Nat := if now < point then point else point + ((now - point) / refreshPeriod + 1) * refreshPeriod

/-- FORCE_MS has passed since the owner's last retraining lull. -/
def Dev.forceDue (d : Dev) (o : Nat) : Bool := decide ((d.retrainOf o).lastTick + d.forcePeriod ≤ d.ticks)

/-- A forced lull takes this refresh point: FORCE_MS has passed and no gap is open (R417, R426). -/
def Dev.forces (d : Dev) (o : Nat) : Bool := d.forceDue o && !d.gap o && (d.retrainOf o).lull == .none

/-- REFRESH_LULL is due. -/
def dueRefresh (o : Nat) (d : Dev) : Bool :=
  d.isOwner o && decide ((d.retrainOf o).nextRefresh ≤ d.ticks) && !d.forces o

/-- A refresh lull begins; inside a retraining lull, that lull performs the refresh (R415, R426). -/
def Dev.refresh (d : Dev) (o : Nat) : Dev :=
  let n := d.refreshTicks o
  d.modRetrain o fun r => { r with
    nextRefresh := nextPoint r.nextRefresh d.ticks
    lull := match r.lull with
      | .retrain u => .retrain u
      | .forced u => .forced u
      | _ => .refresh (d.ticks + n) }

/-- REFRESH_LULL (R415). -/
def execRefreshLull (owner : Nat) (s : State) : Host.Outcome State Fault Refusal :=
  whenDue "REFRESH_LULL" (dueRefresh owner s.dev) s fun d => d.refresh owner

/-- REFRESH_LULL_END is due. -/
def dueRefreshEnd (o : Nat) (d : Dev) : Bool :=
  d.mainUp &&
  match (d.retrainOf o).lull with
  | .refresh u => decide (u ≤ d.ticks)
  | _ => false

/-- REFRESH_LULL_END (R415). -/
def execRefreshLullEnd (owner : Nat) (s : State) : Host.Outcome State Fault Refusal :=
  whenDue "REFRESH_LULL_END" (dueRefreshEnd owner s.dev) s fun d => d.modRetrain owner fun r => { r with lull := .none }

/-! ### What a retraining lull carries out (R424, R425) -/

/-- Repairs a pseudo-channel has used. -/
def Dev.pcRepairs (d : Dev) (pc : Nat) : Nat := (d.mem.repairs.filter (·.pc == pc)).length

/-- A failing row is repaired, where its pseudo-channel has a repair left (R424). -/
def Dev.repairRow (d : Dev) (r : Nat × Nat × Nat) : Dev :=
  let d : Dev := { d with mem := { d.mem with failing := d.mem.failing.filter (· != r) } }
  if 16 ≤ d.pcRepairs r.1 then d
  else
    let new : RowRepair := { pc := r.1, bank := r.2.1, row := r.2.2, hard := false }
    let d : Dev := { d with mem := { d.mem with repairs := d.mem.repairs ++ [new] }, sec := { d.sec with dirty := true } }
    d.health 0x06 0 (hUnit 2 r.1) 0 [r.1, r.2.1, r.2.2]

/-- The cells of channel `src` moved to channel `dst`, whose pseudo-channels hold nothing else (R425). -/
def moveChannel (src dst : Nat) (m : Mem) : Mem :=
  let lo := 2 * src * pcSize
  let hi := lo + 2 * pcSize
  let rest := memClear (memClear m lo hi) (2 * dst * pcSize) (2 * dst * pcSize + 2 * pcSize)
  (memSlice m lo hi).foldl (fun m c => memWrite m (c.1 - lo + 2 * dst * pcSize) c.2) rest

/-- The channel a copied migration leaves switches to its spare (R425). -/
def Dev.switchChannel (d : Dev) (o : Nat) : Dev :=
  match d.mem.migration with
  | some g =>
    if g.copied && (d.pcs o).any (fun pc => pc / 2 == g.src) then
      { d with
        sec := { d.sec with dirty := true }
        mem := { d.mem with
          migration := none, migrated := d.mem.migrated ++ [(g.src, g.dst)], hbm := moveChannel g.src g.dst d.mem.hbm
          lists := d.mem.lists.map fun l => (l.1, l.2.map (migrate [(g.src, g.dst)])) } }
    else d
  | none => d

/-- What a retraining lull of an owner carries out: up to four row repairs, and a migration's switch (R424, R425). -/
def Dev.lullWork (d : Dev) (o : Nat) : Dev :=
  (((d.mem.failing.filter fun r => (d.pcs o).contains r.1).take 4).foldl Dev.repairRow d).switchChannel o

/-- A retraining lull of an owner begins (R416, R424, R425). -/
def Dev.takeLull (d : Dev) (o : Nat) (l : Lull) : Dev :=
  (d.modRetrain o fun r => { r with lull := l, lastTick := d.ticks, pending := false }).lullWork o

/-! ### Retraining (R416 to R418) -/

/-- RETRAIN_DUE is due. -/
def dueRetrainDue (o : Nat) (d : Dev) : Bool :=
  d.isOwner o && !(d.retrainOf o).pending && decide ((d.retrainOf o).lastTick + d.retrainPeriod ≤ d.ticks)

/-- RETRAIN_DUE (R417, R428). -/
def execRetrainDue (owner : Nat) (s : State) : Host.Outcome State Fault Refusal :=
  whenDue "RETRAIN_DUE" (dueRetrainDue owner s.dev) s fun d => d.modRetrain owner fun r => { r with pending := true }

/-- RETRAIN_LULL is due: RETRAIN_MS has passed, and a gap is open. -/
def dueRetrainLull (o : Nat) (d : Dev) : Bool :=
  d.isOwner o && decide ((d.retrainOf o).lastTick + d.retrainPeriod ≤ d.ticks) && d.gap o &&
  (d.retrainOf o).lull == .none

/-- RETRAIN_LULL (R417, R418). -/
def execRetrainLull (owner : Nat) (s : State) : Host.Outcome State Fault Refusal :=
  whenDue "RETRAIN_LULL" (dueRetrainLull owner s.dev) s fun d => d.takeLull owner (.retrain (d.ticks + retrainTicks))

/-- FORCED_LULL is due: at a refresh point, with FORCE_MS gone by and no gap (R417). -/
def dueForced (o : Nat) (d : Dev) : Bool :=
  d.isOwner o && decide ((d.retrainOf o).nextRefresh ≤ d.ticks) && d.forces o

/-- Transfers in the queues of a partition's cores lose the promise of their bound, and every wait for one has the cause
FORCED_LULL (R46, R53, R413). -/
def CoreRun.overtaken (r : CoreRun) : CoreRun :=
  { r with queue := r.queue.map fun q => { q with landed := false, late := 8 } }

/-- A forced lull begins in place of a refresh lull (R46, R417, R418). -/
def Dev.force (d : Dev) (o : Nat) : Dev :=
  let d := d.modRetrain o fun r => { r with nextRefresh := nextPoint r.nextRefresh d.ticks }
  let d := d.takeLull o (.forced (d.ticks + retrainTicks))
  if o = commonOwner then
    if d.mem.laneBusy.isSome then { d with mem := { d.mem with laneStart := d.mem.laneStart + retrainTicks } } else d
  else
    let d := d.modPart o fun p => { p with forced := satAdd 64 p.forced 1 }
    match d.part? o with
    | some p =>
      let d := p.cores.foldl (fun d c => d.modCore c fun k => { k with run := k.run.overtaken }) d
      (d.partCtxs o).foldl (fun d x => Dev.reorder x (d.queued x) d) d
    | none => d

/-- FORCED_LULL (R46, R417). -/
def execForcedLull (owner : Nat) (s : State) : Host.Outcome State Fault Refusal :=
  whenDue "FORCED_LULL" (dueForced owner s.dev) s fun d => d.force owner

/-- LULL_END is due. -/
def dueLullEnd (o : Nat) (d : Dev) : Bool :=
  d.mainUp &&
  match (d.retrainOf o).lull with
  | .retrain u => decide (u ≤ d.ticks)
  | .forced u => decide (u ≤ d.ticks)
  | _ => false

/-- LULL_END (R416): the save lane takes what an unforced common lull held back. -/
def execLullEnd (owner : Nat) (s : State) : Host.Outcome State Fault Refusal :=
  whenDue "LULL_END" (dueLullEnd owner s.dev) s fun d =>
      (d.modRetrain owner fun r => { r with lull := .none }).laneNext

/-! ### Migration (R425) -/

/-- A channel needs migration: all repairs of a PC are used, more than 64 lost reads within 24 h, or retraining fails. -/
def Dev.needsMigration (d : Dev) (ch : Nat) (retrainFailed : Bool) : Bool :=
  retrainFailed || 16 ≤ d.pcRepairs (2 * ch) || 16 ≤ d.pcRepairs (2 * ch + 1) ||
  64 < (d.mem.lostReads.filter fun r => r.1 == ch && d.ticks < r.2 + 86400 * secTicks).length

/-- A channel serves an owner. -/
def Dev.channelInUse (d : Dev) (ch : Nat) : Bool := d.mem.lists.any fun l => l.2.any fun pc => pc / 2 == ch

/-- MIGRATION_START is due: ST2 runs, and no other migration copies. -/
def dueMigration (ch : Nat) (retrainFailed : Bool) (d : Dev) : Bool :=
  d.mainUp && d.sealed && !d.sec.down.contains 2 && d.mem.migration.isNone && ch < 128 && d.channelInUse ch &&
  d.needsMigration ch retrainFailed

/-- ST2 starts a migration onto a free spare, or marks the stack degraded (R425, R428). -/
def Dev.migrateStart (d : Dev) (ch : Nat) : Dev :=
  match d.mem.spares with
  | sp :: rest =>
    let d : Dev := { d with mem := { d.mem with
      spares := rest, migration := some { src := ch, dst := sp, startTick := d.run, copied := false } } }
    d.health 0x07 1 (hUnit 3 ch) 0 [ch, sp]
  | [] =>
    let d : Dev := { d with mem := { d.mem with mcs := modAt (fun m => { m with degraded := true }) (ch / 16) d.mem.mcs } }
    d.health 0x07 2 (hUnit 3 ch) 0 [ch]

/-- MIGRATION_START (R425). -/
def execMigrationStart (channel : Nat) (retrainFailed : Bool) (s : State) : Host.Outcome State Fault Refusal :=
  whenDue "MIGRATION_START" (dueMigration channel retrainFailed s.dev) s fun d => d.migrateStart channel

/-- Ticks in which the outside share of a channel, 2 B per ck of each of its PCs, copies it (R411, R425). -/
def copyTicks : Nat := pcSize

/-- MIGRATION_COPY_DONE is due. -/
def dueCopied (d : Dev) : Bool :=
  d.mainUp && d.mem.migration.any fun g => !g.copied && decide (g.startTick + copyTicks ≤ d.run)

/-- MIGRATION_COPY_DONE (R425). -/
def execMigrationCopyDone (s : State) : Host.Outcome State Fault Refusal :=
  whenDue "MIGRATION_COPY_DONE" (dueCopied s.dev) s fun d =>
    { d with mem := { d.mem with migration := d.mem.migration.map fun g => { g with copied := true } } }

/-! ### The end of Waking (R472) -/

/-- Every owner's retraining count restarts (R472, R426). -/
def Retrain.restart (r : Retrain) (now : Nat) : Retrain := { r with lull := .none, lastTick := now, pending := false }

/-- Waking completes: every owner has taken a retraining lull (R472). -/
def Dev.awake (d : Dev) : Dev :=
  let l := d.lwd
  let d : Dev := { d with
    lwd := { l with st := if l.drainAfterWake then .draining else .active, woke := true, drainAfterWake := false,
                    leakOwed := false }
    clk := { d.clk with pllLock := true }
    parts := d.parts.map fun p => { p with retrain := p.retrain.restart d.ticks }
    mem := { d.mem with commonRetrain := d.mem.commonRetrain.restart d.ticks } }
  let d := (d.parts.map (·.id) ++ [commonOwner]).foldl Dev.lullWork d
  let d := d.fire .woke
  let d := if l.leakOwed then d.health 0x0D 2 (hUnit 0 0) 0 [] else d
  let d := d.health 0x14 0 (hUnit 0 0) 0 [l.cause, l.wakeFilter]
  d.raiseEvent 0 3

/-- WAKE_COMPLETE (R472). -/
def execWakeComplete (s : State) : Host.Outcome State Fault Refusal :=
  whenDue "WAKE_COMPLETE" (s.dev.boot == .done && s.dev.lwd.st == .waking) s Dev.awake

end Sys2Proof.Machine
end

