-- ==== Sys2Proof/Machine/Registers.lean ====
section
/-! DEFINITION. The register map (chapter 19): which register a BAR0 offset of a function names, and what a write to it
does, by the access types of R10 and R11. -/

namespace Sys2Proof.Machine

/-- The registers that a write can change or act on. The others (read-only, read-cleared, reserved) ignore writes (R10,
R12). `k` numbers the counters of a page in the order of R515. -/
inductive HostReg where
  | glbStatus | glbReset | glbScratch
  | clkStatus | clkPolicy | clkCounter (k : Nat)
  | lwdCmd | lwdStatus | lwdWakeAt | lwdNoticeLo | lwdNoticeHi | lwdFilterSel | lwdFilter | lwdFilterBounds | lwdCoolant
  | lwdCoolantPolicy | lwdCounter (k : Nat)
  | secCmd | secCmdSts | secCmdAddr | secCmdLen | secHealthRing | secHealthLost | secRestarts
  | hifPowerCtl | hifQdBase | hifQueueCmd | hifQueueSts | hifEventVec | hifAperture (k : Nat) | hifCounter (k : Nat)
  | msixAddr (v : Nat) | msixData (v : Nat)
  | dspCharterCmd | dspCharterSts | dspCtxCmd | dspCtxSts | dspF (f k : Nat)
  | dspFaultRing (p : Nat) | dspSlipRing (p : Nat) | dspSave (p : Nat) | dspOverwrite (p : Nat) | dspPCmd (p : Nat)
  | wmkValue (w : Nat) | wmkSignal (w : Nat)
  | depStatus (d : Nat) | depPeak (d : Nat) | depCounter (d k : Nat)
  | memMc (n k : Nat) | memForced (p : Nat)
  | vdecCmd | vdecSts | vdecBase | vdecCounter (k : Nat)
  | vencCmd | vencSts | vencBase | vencCounter (k : Nat)
  | preCmd | preSts | preBase | preCounter (k : Nat) | preNorm (set ch : Nat) | preNormPad (set : Nat)
  | cruCounter (k : Nat)
  | trkZoneSel | trkCounter (k : Nat)
  | vptCtl | vptCounter (k : Nat)
  | dauCtl (p : Nat) | dauWbRing (p : Nat) | dauDgRing (p : Nat) | dauOverwrite (p : Nat)
  | dauMusterCtl | dauMusterSts | dauSignSkipped | dauMismatch
  | coreCounter (n k : Nat) | coreInject (n : Nat) | coreArithFlags (n : Nat) | coreWsqFlags (n : Nat)
  | doorbell (ix : Nat)
  deriving DecidableEq, Repr

/-! ### The pages of the map (R512, R514, R515), by offset within the page -/

def glbReg : Nat → Option HostReg
  | 0x10 => some .glbStatus
  | 0x20 => some .glbReset
  | 0x28 => some .glbScratch
  | _ => none

def clkReg (x : Nat) : Option HostReg :=
  if x = 0 then some .clkStatus
  else if x = 8 then some .clkPolicy
  else if 0x10 ≤ x ∧ x ≤ 0x30 ∧ x % 8 = 0 then some (.clkCounter (x / 8 - 2))
  else none

def lwdReg : Nat → Option HostReg
  | 0x00 => some .lwdCmd
  | 0x08 => some .lwdStatus
  | 0x18 => some .lwdWakeAt
  | 0x20 => some .lwdNoticeLo
  | 0x28 => some .lwdNoticeHi
  | 0x30 => some .lwdFilterSel
  | 0x38 => some .lwdFilter
  | 0x40 => some .lwdFilterBounds
  | 0x50 => some .lwdCoolant
  | 0x58 => some .lwdCoolantPolicy
  | 0x60 => some (.lwdCounter 0)
  | 0x68 => some (.lwdCounter 1)
  | 0x70 => some (.lwdCounter 2)
  | _ => none

def secReg : Nat → Option HostReg
  | 0x28 => some .secCmd
  | 0x30 => some .secCmdSts
  | 0x38 => some .secCmdAddr
  | 0x40 => some .secCmdLen
  | 0x48 => some .secHealthRing
  | 0x58 => some .secHealthLost
  | 0x60 => some .secRestarts
  | _ => none

/-- HIF as function `f` sees it: the link's registers are the PF's, and a VF has aperture 0 only (R458). -/
def hifReg (f x : Nat) : Option HostReg :=
  match x with
  | 0x08 => if f = 0 then some .hifPowerCtl else none
  | 0x10 => some .hifQdBase
  | 0x18 => some .hifQueueCmd
  | 0x20 => some .hifQueueSts
  | 0x28 => some .hifEventVec
  | 0x30 => some (.hifAperture 0)
  | 0x38 => if f = 0 then some (.hifAperture 1) else none
  | 0x40 => if f = 0 then some (.hifAperture 2) else none
  | 0x48 => if f = 0 then some (.hifAperture 3) else none
  | 0x58 => some (.hifCounter 0)
  | 0x60 => some (.hifCounter 1)
  | 0x68 => some (.hifCounter 2)
  | _ => none

/-- The MSI-X table: 16 B an entry. -/
def msixReg (x : Nat) : Option HostReg :=
  if x % 16 = 0 then some (.msixAddr (x / 16)) else if x % 16 = 8 then some (.msixData (x / 16)) else none

/-- The DSP page without its function and partition blocks. -/
def dspReg : Nat → Option HostReg
  | 0x00 => some .dspCharterCmd
  | 0x08 => some .dspCharterSts
  | 0x40 => some .dspCtxCmd
  | 0x48 => some .dspCtxSts
  | _ => none

def dspFReg (f x : Nat) : Option HostReg := if x ≤ 0x20 ∧ x % 8 = 0 then some (.dspF f (x / 8)) else none

def dspPReg (p : Nat) : Nat → Option HostReg
  | 0x10 => some (.dspFaultRing p)
  | 0x18 => some (.dspSlipRing p)
  | 0x20 => some (.dspSave p)
  | 0x28 => some (.dspOverwrite p)
  | 0x30 => some (.dspPCmd p)
  | _ => none

def wmkReg (w : Nat) : Nat → Option HostReg
  | 0 => some (.wmkValue w)
  | 8 => some (.wmkSignal w)
  | _ => none

def depReg (d : Nat) : Nat → Option HostReg
  | 0x18 => some (.depStatus d)
  | 0x20 => some (.depPeak d)
  | 0x28 => some (.depCounter d 0)
  | 0x30 => some (.depCounter d 1)
  | 0x38 => some (.depCounter d 2)
  | _ => none

/-- The MEM block: the controllers' pages, and the device-wide page at 0x8000. -/
def memReg (x : Nat) : Option HostReg :=
  if 0x8000 ≤ x ∧ x < 0x9000 then
    if 0x8100 ≤ x ∧ x < 0x81C0 ∧ (x - 0x8100) % 0x20 = 8 then some (.memForced ((x - 0x8100) / 0x20)) else none
  else
    match x % 0x20000 with
    | 0x08 => some (.memMc (x / 0x20000) 0)
    | 0x10 => some (.memMc (x / 0x20000) 1)
    | 0x18 => some (.memMc (x / 0x20000) 2)
    | _ => none

def vdecReg (x : Nat) : Option HostReg :=
  if x = 0 then some .vdecCmd
  else if x = 8 then some .vdecSts
  else if x = 0x20 then some .vdecBase
  else if 0x28 ≤ x ∧ x ≤ 0x58 ∧ x % 8 = 0 then some (.vdecCounter (x / 8 - 5))
  else none

def vencReg (x : Nat) : Option HostReg :=
  if x = 0 then some .vencCmd
  else if x = 8 then some .vencSts
  else if x = 0x10 then some .vencBase
  else if 0x18 ≤ x ∧ x ≤ 0x30 ∧ x % 8 = 0 then some (.vencCounter (x / 8 - 3))
  else none

def preReg (x : Nat) : Option HostReg :=
  if x = 0 then some .preCmd
  else if x = 8 then some .preSts
  else if x = 0x10 then some .preBase
  else if 0x18 ≤ x ∧ x ≤ 0x28 ∧ x % 8 = 0 then some (.preCounter (x / 8 - 3))
  else if 0x100 ≤ x ∧ x < 0x300 ∧ x % 8 = 0 then
    if x % 0x20 = 0x18 then some (.preNormPad ((x - 0x100) / 0x20)) else some (.preNorm ((x - 0x100) / 0x20) (x % 0x20 / 8))
  else none

def cruReg (x : Nat) : Option HostReg := if x ≤ 0x18 ∧ x % 8 = 0 then some (.cruCounter (x / 8)) else none

def trkReg (x : Nat) : Option HostReg :=
  if x = 0 then some .trkZoneSel
  else if 0x18 ≤ x ∧ x ≤ 0x30 ∧ x % 8 = 0 then some (.trkCounter (x / 8 - 3))
  else none

def vptReg (x : Nat) : Option HostReg :=
  if x = 0 then some .vptCtl
  else if 0x18 ≤ x ∧ x ≤ 0x38 ∧ x % 8 = 0 then some (.vptCounter (x / 8 - 3))
  else none

def dauPReg (p : Nat) : Nat → Option HostReg
  | 0x00 => some (.dauCtl p)
  | 0x08 => some (.dauWbRing p)
  | 0x10 => some (.dauDgRing p)
  | 0x28 => some (.dauOverwrite p)
  | _ => none

def dauReg : Nat → Option HostReg
  | 0x00 => some .dauMusterCtl
  | 0x08 => some .dauMusterSts
  | 0x20 => some .dauSignSkipped
  | 0x28 => some .dauMismatch
  | _ => none

/-- A core's window (R514). Its counters in this order: CSP_CORRECTED, CSP_UNCORRECTED, MXA_RESIDUE, MXA_REPLAYS,
MXA_REPLAY_CK, MXA_HOLDS, MXA_HOLD_CK, VXE_BUSY_CK, VXE_WAIT_CK, WSQ_BUSY_CK. -/
def coreReg (n : Nat) : Nat → Option HostReg
  | 0x1010 => some (.coreCounter n 0)
  | 0x1018 => some (.coreCounter n 1)
  | 0x2008 => some (.coreCounter n 2)
  | 0x2010 => some (.coreCounter n 3)
  | 0x2018 => some (.coreCounter n 4)
  | 0x2020 => some (.coreCounter n 5)
  | 0x2028 => some (.coreCounter n 6)
  | 0x2038 => some (.coreInject n)
  | 0x2040 => some (.coreArithFlags n)
  | 0x3008 => some (.coreCounter n 7)
  | 0x3010 => some (.coreCounter n 8)
  | 0x4008 => some (.coreWsqFlags n)
  | 0x4010 => some (.coreCounter n 9)
  | _ => none

/-- The register at an offset of the PF's BAR0 (R512). -/
def pfReg (x : Nat) : Option HostReg :=
  if x < 0x1000 then glbReg x
  else if 0x10000 ≤ x ∧ x < 0x11000 then clkReg (x - 0x10000)
  else if 0x20000 ≤ x ∧ x < 0x21000 then lwdReg (x - 0x20000)
  else if 0x30000 ≤ x ∧ x < 0x31000 then secReg (x - 0x30000)
  else if 0x40000 ≤ x ∧ x < 0x41000 then hifReg 0 (x - 0x40000)
  else if 0x50000 ≤ x ∧ x < 0x58000 then msixReg (x - 0x50000)
  else if 0x100000 ≤ x ∧ x < 0x101000 then dspReg (x - 0x100000)
  else if 0x101000 ≤ x ∧ x < 0x101700 then dspFReg ((x - 0x101000) / 0x100) (x % 0x100)
  else if 0x102000 ≤ x ∧ x < 0x102600 then dspPReg ((x - 0x102000) / 0x100) (x % 0x100)
  else if 0x200000 ≤ x ∧ x < 0x300000 then wmkReg ((x - 0x200000) / 16) (x % 16)
  else if 0x300000 ≤ x ∧ x < 0x302000 then depReg ((x - 0x300000) / 0x40) (x % 0x40)
  else if 0x400000 ≤ x ∧ x < 0x500000 then memReg (x - 0x400000)
  else if 0x680000 ≤ x ∧ x < 0x681000 then vdecReg (x - 0x680000)
  else if 0x740000 ≤ x ∧ x < 0x741000 then vencReg (x - 0x740000)
  else if 0x780000 ≤ x ∧ x < 0x781000 then preReg (x - 0x780000)
  else if 0x7C0000 ≤ x ∧ x < 0x7C1000 then cruReg (x - 0x7C0000)
  else if 0x800000 ≤ x ∧ x < 0x801000 then trkReg (x - 0x800000)
  else if 0x900000 ≤ x ∧ x < 0x901000 then vptReg (x - 0x900000)
  else if 0xA01000 ≤ x ∧ x < 0xA01180 then dauPReg ((x - 0xA01000) / 0x40) (x % 0x40)
  else if 0xA02000 ≤ x ∧ x < 0xA03000 then dauReg (x - 0xA02000)
  else if 0x1000000 ≤ x ∧ x < 0x2800000 then coreReg ((x - 0x1000000) / 0x400000) (x % 0x400000)
  else none

/-- The partition a VF owns; a VF owns at most one (R356). -/
def Dev.ownPart (d : Dev) (f : Nat) : Option Part := d.parts.find? fun p => p.defined && p.owner == f

/-- The depots whose pages a VF sees: its partition's, its OVERFLOW depot and the VIDEO classes (R400). -/
def Dev.seesDepot (d : Dev) (f dep : Nat) : Bool :=
  dep < 0x10 || dep == overflowDepot f ||
  match depotPart dep with
  | some p => (d.part? p).any (·.owner == f)
  | none => false

/-- Core registers that a VF may clear: VXE_BUSY_CK, VXE_WAIT_CK and WSQ_BUSY_CK of its partition's cores (R517). -/
def Dev.vfCore (d : Dev) (f n x : Nat) : Option HostReg :=
  match coreReg n x with
  | some (.coreCounter n k) =>
    if 7 ≤ k ∧ (d.ownPart f).any (fun p => bitAt p.mask n) then some (.coreCounter n k) else none
  | _ => none

/-- The register at an offset of VF `f`'s BAR0 (R516, R517). Depot pages are read-only but for their counters. -/
def Dev.vfReg (d : Dev) (f x : Nat) : Option HostReg :=
  if x < 0x1000 then (if x = 0x28 then some .glbScratch else none)
  else if x < 0x2000 then hifReg f (x - 0x1000)
  else if x < 0x3000 then (if x = 0x2040 then some .dspCtxCmd else if x = 0x2048 then some .dspCtxSts else none)
  else if x < 0x3100 then dspFReg f (x - 0x3000)
  else if 0x4000 ≤ x ∧ x < 0x4100 then (d.ownPart f).bind fun p => dspPReg p.id (x - 0x4000)
  else if 0x5000 ≤ x ∧ x < 0x5040 then (d.ownPart f).bind fun p => dauPReg p.id (x - 0x5000)
  else if 0x8000 ≤ x ∧ x < 0xA000 then
    (if d.seesDepot f ((x - 0x8000) / 0x40) then
      match depReg ((x - 0x8000) / 0x40) (x % 0x40) with
      | some (.depStatus _) => none
      | r => r
     else none)
  else if 0xA000 ≤ x ∧ x < 0xB000 then vdecReg (x - 0xA000)
  else if 0xB000 ≤ x ∧ x < 0xC000 then vencReg (x - 0xB000)
  else if 0xC000 ≤ x ∧ x < 0xD000 then preReg (x - 0xC000)
  else if 0xD000 ≤ x ∧ x < 0xE000 then cruReg (x - 0xD000)
  else if 0xE000 ≤ x ∧ x < 0xF000 then trkReg (x - 0xE000)
  else if 0x10000 ≤ x ∧ x < 0x28000 then d.vfCore f ((x - 0x10000) / 0x4000) (x % 0x4000 + 0x1000)
  else if 0x40000 ≤ x ∧ x < 0x7E000 then
    (d.ownPart f).bind fun p =>
      let i := (x - 0x40000) / 16
      if i < p.wmCount then wmkReg (p.wmFirst + i) (x % 16) else none
  else if 0x7E000 ≤ x ∧ x < 0x7E400 then msixReg (x - 0x7E000)
  else if 0x80000 ≤ x ∧ x < 0x100000 then (if x % 8 = 0 then some (.doorbell ((x - 0x80000) / 8)) else none)
  else none

/-- Bytes of a function's BAR0 (R436). -/
def bar0Size (f : Nat) : Nat := if f = 0 then 0x4000000 else 0x100000

/-- The page an offset lies in, for what serves it while the device sleeps or recovers (R469, R494). -/
def pageAt (f x : Nat) : Page :=
  if x < 0x1000 then .glb
  else if f = 0 then
    if x < 0x10000 then .rest
    else if x < 0x20000 then .clk
    else if x < 0x30000 then .lwd
    else if x < 0x40000 then .sec
    else if x = 0x40000 then .link
    else if 0x50000 ≤ x ∧ x < 0x58100 then .msix
    else .rest
  else if 0x7E000 ≤ x ∧ x < 0x80000 then .msix
  else .rest

/-! ### What a write does -/

/-- A counter, 64 bits, RW: a write sets it; writing 0 clears it (R10, R14). -/
def setCounter (h : Half) (v old : Nat) : Nat := rwWrite h (2 ^ 64 - 1) old v

/-- Bit `i` of the value written, where the write reaches it: a W1C or W1S action. -/
def hit (h : Half) (v i : Nat) : Bool := halfHits h i && bitAt (halfPlace h v) i

/-- A write clears a W1C bit, unless an event sets it in the same cycle (R10, R13). -/
def Dev.clears (d : Dev) (b : W1cBit) (h : Half) (v i : Nat) : Bool := hit h v i && !d.fresh.contains b

/-- DROPPED of a command register is bit 1 of its status, W1C. -/
def Dev.ackCmd (d : Dev) (f : Nat) (p : CmdPort) (h : Half) (v : Nat) : Dev :=
  if d.clears (.dropped f p) h v 1 then d.modFn f fun x => x.modCmd p fun c => { c with dropped := false } else d

/-- Flags of a core without those that a write clears: bits below `n`, by their W1C bit. -/
def Dev.leftFlags (d : Dev) (b : Nat → W1cBit) (n : Nat) (h : Half) (v flags : Nat) : Nat :=
  sum ((upTo n).map fun i => if bitAt flags i && !d.clears (b i) h v i then 2 ^ i else 0)

/-- A WO command register acts where the write reaches the half that holds OP (R11). -/
def onLow (h : Half) (d : Dev) (k : Dev → Dev) : Dev := if halfHits h 0 then k d else d

/-- The MSI-X entry of a vector rewritten; a pending message is sent once it is unmasked (R452). -/
def Dev.msixWrite (d : Dev) (f v : Nat) (g : MsixEntry → MsixEntry) : Dev :=
  if vecCount f ≤ v then d
  else
    let d := d.modFn f fun x => { x with msix := x.msix.filter (·.vec != v) ++ [g (x.entry v)] }
    if d.mayRequest f then d.flushPending f else d

/-- Address of an entry, dword-aligned. -/
def MsixEntry.writeAddr (h : Half) (v : Nat) (e : MsixEntry) : MsixEntry :=
  { e with addr := rwWrite h (2 ^ 64 - 4) e.addr v }

/-- Data in the low half, vector control in the high half: bit 0 masks. -/
def MsixEntry.writeData (h : Half) (v : Nat) (e : MsixEntry) : MsixEntry :=
  let w := rwWrite h (2 ^ 33 - 1) (e.data + e.ctl % 2 * 2 ^ 32) v
  { e with data := w % 2 ^ 32, ctl := w / 2 ^ 32 % 2 }

/-- The mask of a ring register (R341, R381). -/
def ringMask : Nat := 2 ^ 53 - 2 ^ 10

/-- The mask of DSP_P_SAVE (R381). -/
def saveMask : Nat := 2 ^ 61 - 2 ^ 21

/-- The partition has a context (R377), which is also a job resident or becalmed (R339). -/
def Dev.hasCtx (d : Dev) (p : Nat) : Bool := d.ctxs.any fun x => x.entry.part == p

/-- A ring or save register of a partition is written, unless the partition has a context (R339, R377). -/
def Dev.ringWrite (d : Dev) (p : Nat) (g : Part → Part) : Dev := if d.hasCtx p then d else d.modPart p g

/-- CORE_MXA_INJECT as a word (R165). -/
def Inject.word (i : Inject) : Nat :=
  b2n i.arm + 2 * b2n i.repeats + i.row * 2 ^ 8 + i.column * 2 ^ 16 + i.count * 2 ^ 24 + i.step * 2 ^ 32

/-- A write of CORE_MXA_INJECT: it replaces an armed injection, and acts on the next job that starts (R165). -/
def Inject.write (i : Inject) (h : Half) (v : Nat) : Inject :=
  let w := rwWrite h 0xFFFFFFFF0F3F1F03 i.word v
  { arm := bitAt w 0, repeats := bitAt w 1, row := bits w 8 5, column := bits w 16 6, count := bits w 24 4,
    step := bits w 32 32, owner := none }

/-- Counter `k` of a core. -/
def Core.setCounter (c : Core) (k : Nat) (g : Nat → Nat) : Core :=
  match k with
  | 0 => { c with corrected := g c.corrected }
  | 1 => { c with uncorrected := g c.uncorrected }
  | 2 => { c with residue := g c.residue }
  | 3 => { c with replays := g c.replays }
  | 4 => { c with replayCk := g c.replayCk }
  | 5 => { c with holds := g c.holds }
  | 6 => { c with holdCk := g c.holdCk }
  | 7 => { c with vxeBusy := g c.vxeBusy }
  | 8 => { c with vxeWait := g c.vxeWait }
  | 9 => { c with wsqBusy := g c.wsqBusy }
  | _ => c

/-- A VF's write of a core counter clears it where it writes 0, and does nothing else (R517). -/
def coreCount (f : Nat) (h : Half) (v old : Nat) : Nat := if f = 0 then setCounter h v old else cntWrite h old v

/-- The verdict port stays disabled: the sealed charter has no section for it (R354). -/
def Dev.portless (d : Dev) : Bool := d.sealed && (d.charter.cur.bind (·.port)).isNone

/-- VPT_CTL: ENABLE is RW, where the charter lets the port be enabled; the others are RWL, so a SEALED charter keeps them
(R10, R318, R354). -/
def vptMask (d : Dev) : Nat := if d.portless then 0 else if d.sealed then 1 else 7

/-- SEC_CMD by its OP (R494, R498, R506, R510). What host memory, the units and the stewards hold is no part of the value
written: it is free here, and an operand of the commands that have rows of their own (log 2). -/
def Dev.secOp (d0 : Dev) (v : Nat) : Dev :=
  let n := d0.free
  let tag := bits v 8 8
  let d : Dev := { d0 with free := n + 1 }
  d.secCmd (bits v 0 4) tag fun d =>
    match bits v 0 4 with
    | 1 => d.imageCmd 1 tag (Config.hostImage n)
    | 2 => d.imageCmd 2 tag (Config.hostImage n)
    | 3 => d.selfTest tag (Config.failingUnits n)
    | 4 => d.dumpCmd tag (Config.stewardLog n)
    | _ => d.secEnds tag 1 0 0

/-- A write of DSP_CTX_CMD: OP lies in the high half; JOB is 0 where the write does not carry it (R11, R379). -/
def Dev.ctxWrite (d : Dev) (f : Nat) (h : Half) (v : Nat) : Dev :=
  if halfHits h 32 then
    let w := halfPlace h v
    d.ctxOp f (bits w 32 4) (bits w 0 32) (bits w 40 8)
  else d

/-- Counter `k` of the LWD page. -/
def Lwd.setCounter (l : Lwd) (k : Nat) (g : Nat → Nat) : Lwd :=
  match k with
  | 0 => { l with notices := g l.notices }
  | 1 => { l with ignored := g l.ignored }
  | 2 => { l with asleep := g l.asleep }
  | _ => l

/-- Counter `k` of the CLK page. -/
def Clk.setCounter (c : Clk) (k : Nat) (g : Nat → Nat) : Clk :=
  match k with
  | 0 => { c with ovrThermal := g c.ovrThermal }
  | 1 => { c with ovrPower := g c.ovrPower }
  | 2 => { c with ovrHrd := g c.ovrHrd }
  | 3 => { c with capUnmetCnt := g c.capUnmetCnt }
  | 4 => { c with gatedNs := g c.gatedNs }
  | _ => c

/-- Counter `k` of a depot (R400). -/
def Depot.setCounter (x : Depot) (k : Nat) (g : Nat → Nat) : Depot :=
  match k with
  | 0 => { x with ev1 := g x.ev1 }
  | 1 => { x with ev2 := g x.ev2 }
  | 2 => { x with tagErr := g x.tagErr }
  | _ => x

/-- Counter `k` of a memory controller. -/
def Mc.setCounter (m : Mc) (k : Nat) (g : Nat → Nat) : Mc :=
  match k with
  | 0 => { m with corrected := g m.corrected }
  | 1 => { m with retried := g m.retried }
  | 2 => { m with lost := g m.lost }
  | _ => m

/-- Counter `k` of the verdict port. -/
def Vpt.setCounter (u : Vpt) (k : Nat) (g : Nat → Nat) : Vpt :=
  match k with
  | 0 => { u with queries := g u.queries }
  | 1 => { u with dropped := g u.dropped }
  | 2 => { u with bad := g u.bad }
  | 3 => { u with other := g u.other }
  | 4 => { u with worstNs := g u.worstNs }
  | _ => u

/-- Counter `k` of HIF. -/
def Fn.setHif (x : Fn) (k : Nat) (g : Nat → Nat) : Fn :=
  match k with
  | 0 => { x with bar2Denied := g x.bar2Denied }
  | 1 => { x with doorbellErrors := g x.doorbellErrors }
  | 2 => { x with fetchErrors := g x.fetchErrors }
  | _ => x

/-- A channel of a normalisation set (R140). -/
def NormSet.writeCh (n : NormSet) (j : Nat) (h : Half) (v : Nat) : NormSet :=
  { n with ch := modAt (fun old => rwWrite h 0x00FF03FFFFFFFFFF old v) j n.ch }

/-- What function `f`'s write of `v` to a register does. -/
def Dev.writeReg (d : Dev) (f : Nat) (r : HostReg) (h : Half) (v : Nat) : Dev :=
  let w := halfPlace h v
  let cnt := setCounter h v
  let atCnt := fun (k : Nat) (l : List Nat) => modAt cnt k l
  match r with
  | .glbStatus => if d.clears .resetRefused h v 6 then { d with resetRefused := false } else d
  | .glbReset => d.glbReset f h v
  | .glbScratch => d.modFn f fun x => { x with scratch := rwWrite h (2 ^ 64 - 1) x.scratch v }
  | .clkStatus => if d.clears .refLost h v 36 then { d with clk := { d.clk with refLostFlag := false } } else d
  | .clkPolicy => { d with clk := { d.clk with policy := rwWrite h 0x7F7F07FF d.clk.policy v } }
  | .clkCounter k => { d with clk := d.clk.setCounter k cnt }
  | .lwdCmd => onLow h d fun d => d.lwdCmd (bits w 0 4) (bits w 8 8)
  | .lwdStatus => if d.clears .woke h v 19 then { d with lwd := { d.lwd with woke := false } } else d
  | .lwdWakeAt => { d with lwd := { d.lwd with wakeAt := rwWrite h (2 ^ 64 - 1) d.lwd.wakeAt v } }
  | .lwdNoticeLo => { d with lwd := { d.lwd with noticeLo := rwWrite h 0xFFFFFFFF00033FFF d.lwd.noticeLo v } }
  | .lwdNoticeHi => d.notice w
  | .lwdFilterSel => { d with lwd := { d.lwd with filterSel := rwWrite h 0xFFF d.lwd.filterSel v } }
  | .lwdFilter => { d with lwd := d.lwd.filterWrite h v }
  | .lwdFilterBounds => { d with lwd := d.lwd.boundsWrite h v }
  | .lwdCoolant =>
    if d.clears .leak h v 33 then
      { d with lwd := { d.lwd with coolant := d.lwd.coolant - b2n (bitAt d.lwd.coolant 33) * 2 ^ 33 } }
    else d
  | .lwdCoolantPolicy => { d with lwd := { d.lwd with coolantPolicy := rwWrite h 0xFFF03FFF d.lwd.coolantPolicy v } }
  | .lwdCounter k => { d with lwd := d.lwd.setCounter k cnt }
  | .secCmd => onLow h d fun d => d.secOp w
  | .secCmdSts => if d.clears .secDropped h v 1 then { d with sec := { d.sec with dropped := false } } else d
  | .secCmdAddr => { d with sec := { d.sec with addr := rwWrite h (2 ^ 64 - 1) d.sec.addr v } }
  | .secCmdLen => { d with sec := { d.sec with len := rwWrite h (2 ^ 32 - 1) d.sec.len v } }
  | .secHealthRing => d.healthRing h v
  | .secHealthLost => { d with sec := { d.sec with lost := cnt d.sec.lost } }
  | .secRestarts => { d with sec := { d.sec with restarts := cnt d.sec.restarts } }
  | .hifPowerCtl => { d with link := { d.link with powerCtl := rwWrite h 0xFFFFF d.link.powerCtl v } }
  | .hifQdBase => d.writeTable f 0 h v
  | .hifQueueCmd => onLow h d fun d => d.queueOp f (bits w 20 4) (bits w 0 20) (bits w 24 8)
  | .hifQueueSts => d.ackCmd f .queue h v
  | .hifEventVec => d.modFn f fun x => { x with eventVec := rwWrite h (2 ^ 48 - 1) x.eventVec v }
  | .hifAperture k => d.modFn f fun x => { x with apertures := modAt (fun a => rwWrite h 0x0000FFFFC000001F a v) k x.apertures }
  | .hifCounter k => d.modFn f fun x => x.setHif k cnt
  | .msixAddr e => d.msixWrite f e (MsixEntry.writeAddr h v)
  | .msixData e => d.msixWrite f e (MsixEntry.writeData h v)
  | .dspCharterCmd => onLow h d fun d => d.charterCmd (bits w 0 4) (bits w 16 8)
  | .dspCharterSts => if d.clears .charterDropped h v 1 then { d with charter := { d.charter with dropped := false } } else d
  | .dspCtxCmd => d.ctxWrite f h v
  | .dspCtxSts => d.ackCmd f .ctx h v
  | .dspF g k => d.modFn g fun x => { x with dspCnt := atCnt k x.dspCnt }
  | .dspFaultRing p => d.ringWrite p fun x => { x with faultRing := rwWrite h ringMask x.faultRing v, faultWrites := 0 }
  | .dspSlipRing p => d.ringWrite p fun x => { x with slipRing := rwWrite h ringMask x.slipRing v, slipWrites := 0 }
  | .dspSave p => d.ringWrite p fun x => { x with save := rwWrite h saveMask x.save v }
  | .dspOverwrite p => d.modPart p fun x => { x with overwrite := cnt x.overwrite }
  | .dspPCmd p => onLow h d fun d => if bits w 0 4 = 1 then d.partReset f p else d
  | .wmkValue m => onLow h d fun d => d.wmHost f m fun _ => w
  | .wmkSignal m => onLow h d fun d => d.wmHost f m fun c => c + w % 2 ^ 32
  | .depStatus i =>
    d.modDepot i fun x => { x with seen1 := x.seen1 && !d.clears (.hw1 i) h v 2, seen2 := x.seen2 && !d.clears (.hw2 i) h v 3 }
  | .depPeak i => d.modDepot i fun x => { x with peak := max (cnt x.peak) x.level }
  | .depCounter i k => d.modDepot i fun x => x.setCounter k cnt
  | .memMc n k => { d with mem := { d.mem with mcs := modAt (fun m => m.setCounter k cnt) n d.mem.mcs } }
  | .memForced p => d.modPart p fun x => { x with forced := cnt x.forced }
  | .vdecCmd => onLow h d fun d => d.streamOp f (bits w 16 4) (bits w 0 14) (bits w 24 8)
  | .vdecSts => d.ackCmd f .stream h v
  | .vdecBase => d.writeTable f 1 h v
  | .vdecCounter k => d.modFn f fun x => { x with vdecCnt := atCnt k x.vdecCnt }
  | .vencCmd => onLow h d fun d => d.clipOp f (bits w 16 4) (bits w 0 16) (bits w 32 32) (bits w 24 8)
  | .vencSts => d.ackCmd f .clip h v
  | .vencBase => d.writeTable f 2 h v
  | .vencCounter k => d.modFn f fun x => { x with vencCnt := atCnt k x.vencCnt }
  | .preCmd => onLow h d fun d => d.routeOp f (bits w 16 4) (bits w 0 16) (bits w 24 8)
  | .preSts => d.ackCmd f .route h v
  | .preBase => d.writeTable f 3 h v
  | .preCounter k => d.modFn f fun x => { x with preCnt := atCnt k x.preCnt }
  | .preNorm k j => d.modFn f fun x => { x with norm := modAt (fun n => n.writeCh j h v) k x.norm }
  | .preNormPad k => d.modFn f fun x => { x with norm := modAt (fun n => { n with pad := rwWrite h 0xFFFF n.pad v }) k x.norm }
  | .cruCounter k => d.modFn f fun x => { x with cruCnt := atCnt k x.cruCnt }
  | .trkZoneSel => onLow h d fun d => d.zoneSelect f (bits w 0 12)
  | .trkCounter k => d.modFn f fun x => { x with trkCnt := atCnt k x.trkCnt }
  | .vptCtl =>
    let kept := if d.sealed then d.vpt.ctl &&& 6 else 0
    { d with vpt := { d.vpt with ctl := rwWrite h (vptMask d) d.vpt.ctl v + kept } }
  | .vptCounter k => { d with vpt := d.vpt.setCounter k cnt }
  | .dauCtl p => d.modPart p fun x => { x with dauCtl := rwWrite h 7 x.dauCtl v }
  | .dauWbRing p => d.ringWrite p fun x => { x with wbRing := rwWrite h ringMask x.wbRing v, wbHeld := [] }
  | .dauDgRing p => d.ringWrite p fun x => { x with dgRing := rwWrite h ringMask x.dgRing v, dgHeld := [] }
  | .dauOverwrite p => d.modPart p fun x => { x with dauOverwrite := cnt x.dauOverwrite }
  | .dauMusterCtl => d.musterCtl h v
  | .dauMusterSts =>
    { d with dau := { d.dau with
        missed := d.dau.missed && !d.clears .missed h v 1, lateStart := d.dau.lateStart && !d.clears .lateStart h v 2
        marginLow := d.dau.marginLow && !d.clears .marginLow h v 3 } }
  | .dauSignSkipped => { d with dau := { d.dau with signSkipped := cnt d.dau.signSkipped } }
  | .dauMismatch => onLow h d fun d => d.mismatch (w % 2 ^ 32)
  | .coreCounter n k => d.modCore n fun c => c.setCounter k (coreCount f h v)
  | .coreInject n => d.modCore n fun c => { c with inject := c.inject.write h v }
  | .coreArithFlags n => d.modCore n fun c => { c with arithFlags := d.leftFlags (.arith n) 16 h v c.arithFlags }
  | .coreWsqFlags n => d.modCore n fun c => { c with wsqFlags := d.leftFlags (.window n) 2 h v c.wsqFlags }
  | .doorbell i => d.doorbell f (((d.funcCfg? f).map (·.queueFirst)).getD 0 + i) h v

/-- The register an offset of a function's BAR0 names. -/
def Dev.regAt (d : Dev) (f x : Nat) : Option HostReg := if f = 0 then pfReg x else d.vfReg f x

/-- A host write to an offset of BAR0: an access that is not aligned is dropped and logged (R437); doorbells of a VF have
accesses of their own kind (R445, R469). -/
def Dev.hostWrite (d : Dev) (f x : Nat) (h : Half) (v : Nat) : Dev :=
  if x % 8 ≠ 0 then (d.access f .glb fun d => d.logError f 5 0 0)
  else
    match d.regAt f x with
    | some (.doorbell i) => d.doorbellAccess f (((d.funcCfg? f).map (·.queueFirst)).getD 0 + i) h v
    | some r => d.access f (pageAt f x) fun d => d.writeReg f r h v
    | none => d.access f (pageAt f x) fun d => d

/-- REGISTER_WRITE (R10, R11, chapter 19). -/
def execRegisterWrite (fn offset : Nat) (half : Half) (value : Reg) (s : State) : Host.Outcome State Fault Refusal :=
  always s fun d => d.hostWrite fn offset half value.toNat

end Sys2Proof.Machine
end

