-- ==== Sys2Proof/Machine/Scrub.lean ====
section
/-! DEFINITION. ECC of the stacks: corrected reads, retries and lost lines with their readers' outcomes, failing rows, and
the patrol scrub (R420 to R424). -/

namespace Sys2Proof.Machine

/-- Ticks of 24 hours (R424, R425). -/
def dayTicks : Nat := 86400 * secTicks

/-- A 64 B line of a pseudo-channel. -/
def isLine (pc addr : Nat) : Bool := pc < 256 && addr < pcSize && addr % 64 == 0

/-- The controller of a pseudo-channel changed. -/
def Dev.modMc (d : Dev) (pc : Nat) (g : Mc → Mc) : Dev :=
  { d with mem := { d.mem with mcs := modAt g (pc / 32) d.mem.mcs } }

/-- LAST_ERROR of a line (R428). -/
def lastError (pc addr : Nat) (lost : Bool) : Nat :=
  let b := bankOf addr
  pc + b.1 * 2 ^ 8 + b.2.1 * 2 ^ 14 + b.2.2 * 2 ^ 29 + b2n lost * 2 ^ 39

/-- A row joins the failing rows (R424). -/
def Dev.failRow (d : Dev) (pc addr : Nat) : Dev :=
  let r := (pc, (bankOf addr).1, (bankOf addr).2.1)
  { d with mem := { d.mem with failing := if d.mem.failing.contains r then d.mem.failing else d.mem.failing ++ [r] } }

/-- A corrected read: exact data; the count, and a row whose errors lie in four lines within a day fails (R420, R424). -/
def Dev.correctedRead (d : Dev) (pc addr : Nat) : Dev :=
  let b := bankOf addr
  let d := d.modMc pc fun m => { m with corrected := satAdd 64 m.corrected 1 }
  let mine := fun (e : Nat × Nat × Nat × Nat × Nat) => e.1 == pc && e.2.1 == b.1 && e.2.2.1 == b.2.1
  let line := b.2.2 / 64
  let kept := d.mem.correctedLines.filter fun e =>
    decide (d.ticks < e.2.2.2.2 + dayTicks) && !(mine e && e.2.2.2.1 == line)
  let d : Dev := { d with mem := { d.mem with correctedLines := kept ++ [(pc, b.1, b.2.1, line, d.ticks)] } }
  if 4 ≤ (d.mem.correctedLines.filter mine).length then d.failRow pc addr else d

/-- A read recovered by retry (R420, R424). -/
def Dev.retriedRead (d : Dev) (pc addr : Nat) : Dev :=
  (d.modMc pc fun m => { m with retried := satAdd 64 m.retried 1, lastError := lastError pc addr false }).failRow pc addr

/-- A lost read: counted, reported by ST2, and its row fails (R421, R424). -/
def Dev.lostRead (d : Dev) (pc addr : Nat) : Dev :=
  let b := bankOf addr
  let d := d.modMc pc fun m => { m with lost := satAdd 64 m.lost 1, lastError := lastError pc addr true }
  let d : Dev := { d with mem := { d.mem with lostReads :=
    (d.mem.lostReads.filter fun r => decide (d.ticks < r.2 + dayTicks)) ++ [(pc / 2, d.ticks)] } }
  ((d.failRow pc addr).life 7 1).health 0x05 1 (hUnit 2 pc) 0 [pc, b.1, b.2.1, b.2.2]

/-! ### Readers -/

/-- The LDT in a place of a core's queue with the job it belongs to. -/
def Dev.loadAt (d : Dev) (core place : Nat) : Option (Seat × Transfer) :=
  match d.seat core with
  | some s =>
    match s.k.run.queue[place]? with
    | some q => if q.store then none else some (s, q)
    | none => none
  | none => none

/-- The job whose start reads the partition: the head of its list (R421). -/
def Dev.starting (d : Dev) (part : Nat) : Option (JobEntry × List Nat) :=
  match d.part? part with
  | some p => if dueJobStart part d && (d.firstReady part).isNone then (d.headMove p).map fun h => (h.1, h.2.1) else none
  | none => none

/-- The owner of the memory a reader reads; none where nothing of the kind reads. -/
def Dev.readerOwner (d : Dev) : Reader → Option Nat
  | .transfer core place => (d.loadAt core place).map fun q => q.1.p.id
  | .dispatch part => (d.starting part).map fun _ => part
  | .restore job =>
    match (d.ctx? job).bind (·.lane) with
    | some (.restore _) => some commonOwner
    | _ => none
  | .frame cls buf off stream serial =>
    if (d.video.frame? cls buf).isSome && (d.pic? stream serial).isSome && off % 64 == 0 then some commonOwner else none
  | .gather step => ((d.trk.steps.find? (·.id == step)).filter ReidStep.waits).map (·.part)
  | .mirrored fn table _ => if fn < 7 && table < 5 then some commonOwner else none
  | .bar2 fn _ _ => if (d.fn fn).present then some commonOwner else none
  | .scrub => some commonOwner

/-- The line lies in memory that the reader reads: BAR2 and scrub reach every stack. -/
def Dev.reaches (d : Dev) (pc : Nat) (r : Reader) : Bool :=
  match r with
  | .bar2 _ _ _ | .scrub => (d.readerOwner r).isSome
  | _ => (d.readerOwner r).any fun o => (d.pcs o).contains pc

/-- A retried transfer's data lands at schedule ck `ck`: past the bound the wait is a slip with cause MEMORY_RETRY
(R420); of a transfer that overlaps a forced lull every wait keeps the cause FORCED_LULL (R46). -/
def Dev.lateLoad (d : Dev) (core place ck : Nat) : Dev :=
  match d.loadAt core place with
  | some (_, q) =>
    if q.release < ck then
      (d.modCore core fun k => { k with
        run := { k.run with queue := modAt (fun q => { q with late := if q.late = 8 then 8 else 9 }) place k.run.queue } }).landData
        core place ck
    else d
  | none => d

/-- 64 B of a frame buffer read as mid-grey, and the picture they were read for carries CONCEALED (R421). -/
def Dev.greyLine (d : Dev) (cls buf off n k : Nat) : Dev :=
  let depth := match d.video.frame? cls buf with
    | some f => ((d.pic? f.stream f.serial).map (·.depth)).getD 8
    | none => 8
  let row := (List.replicate (64 / sampleBytes depth) (grey depth)).flatMap (le (sampleBytes depth))
  (d.bufPut (videoDepot cls) buf off row).modPic n k fun p => { p with conditions := (p.conditions ++ [1]).eraseDups }

/-- A line of a function table is taken from its mirror, and the failed copy rewritten (R422). An OVERFLOW depot, table 4
here, has both copies beside each other: its records do not change. -/
def Dev.fromMirror (d : Dev) (f t off : Nat) : Dev :=
  match (d.tables f)[t]? with
  | some (base, len) =>
    let n := min 64 (len - off)
    d.commonWrite f (base + off) (memBytes d.mem.mirror (mirrorKey f t off) n)
  | none => d

/-- What a lost line does to its reader (R421). -/
def Dev.readerLoses (d : Dev) (r : Reader) : Dev :=
  match r with
  | .transfer core _ =>
    match d.seat core with
    | some s => d.teardown s.x.entry.id 8 s.k.run.ip s.slot
    | none => d
  | .dispatch part =>
    match d.starting part with
    | some (e, ids) => (d.takeIds part ids).endUnstarted e 0x13 8 0 true
    | none => d
  | .restore job =>
    match d.ctx? job with
    | some x => (d.teardown job 8 (((x.saved[0]?).map (·.run.ip)).getD noIp) 0).laneNext
    | none => d
  | .frame cls buf off n k => d.greyLine cls buf off n k
  | .gather step => (d.modStep step fun s => { s with issued := s.tracks.length, failed := true }).stepEnds step
  | .mirrored f t off => d.fromMirror f t off
  | .bar2 f _ _ => ((d.logError f 6 0 0).health 0x0F 1 (hUnit 0 0) 0 []).emit (.abort f)
  | .scrub => d

/-- A read outcome fits its reader: 1 to 3 tries, and a transfer's data lands no earlier than the job stands (R420). -/
def Dev.outcomeFits (d : Dev) (o : ReadOutcome) (r : Reader) : Bool :=
  match o with
  | .corrected => true
  | .retried tries ck =>
    1 ≤ tries && tries ≤ 3 &&
    (match r with
     | .transfer core place => (d.loadAt core place).any fun q => decide (q.1.x.now ≤ ck) && decide (q.1.x.now ≤ q.2.release)
     | _ => true)
  | .lost => true

/-- HBM_READ_RETRY is due. -/
def dueRetry (pc addr : Nat) (o : ReadOutcome) (r : Reader) (d : Dev) : Bool :=
  d.mainUp && isLine pc addr && d.reaches pc r && d.outcomeFits o r

/-- A read that met an error (R420, R421). A line with a mirror is not lost. -/
def Dev.readError (d : Dev) (pc addr : Nat) (o : ReadOutcome) (r : Reader) : Dev :=
  match o with
  | .corrected => d.correctedRead pc addr
  | .retried _ ck =>
    let d := d.retriedRead pc addr
    (match r with
     | .transfer core place => d.lateLoad core place ck
     | _ => d)
  | .lost =>
    match r with
    | .mirrored _ _ _ => d.readerLoses r
    | _ => (d.lostRead pc addr).readerLoses r

/-- HBM_READ_RETRY (R420, R421). -/
def execHbmReadRetry (pc addr : Nat) (outcome : ReadOutcome) (reader : Reader) (s : State) :
    Host.Outcome State Fault Refusal :=
  whenDue "HBM_READ_RETRY" (dueRetry pc addr outcome reader s.dev) s fun d => d.readError pc addr outcome reader

/-- PATROL_SCRUB is due: the controllers run. -/
def dueScrub (pc addr : Nat) (d : Dev) : Bool := d.mainUp && isLine pc addr

/-- PATROL_SCRUB (R423): one line is read. -/
def execPatrolScrub (pc addr : Nat) (outcome : Option ReadOutcome) (s : State) : Host.Outcome State Fault Refusal :=
  whenDue "PATROL_SCRUB" (dueScrub pc addr s.dev) s fun d =>
      match outcome with
      | some o => d.readError pc addr o .scrub
      | none => d

end Sys2Proof.Machine
end

