-- ==== Sys2Proof/Machine/Dispatch.lean ====
section
/-! DEFINITION. The one table from commands to their meanings: each arm is one direct call. -/

namespace Sys2Proof.Machine

open Sys2Proof

/-- The effect of a command on everything but the queue of commands. -/
def exec (i : Instr) (s : State) : Host.Outcome State Fault Refusal :=
  match i with
  | .registerWrite fn offset half value => Sys2Proof.Machine.execRegisterWrite fn offset half value s
  | .nop core => Sys2Proof.Machine.execNop core s
  | .scalePrefix core => Sys2Proof.Machine.execScalePrefix core s
  | .mxm core ecc => Sys2Proof.Machine.execMxm core ecc s
  | .cnv core ecc => Sys2Proof.Machine.execCnv core ecc s
  | .dwc core ecc => Sys2Proof.Machine.execDwc core ecc s
  | .plx core ecc => Sys2Proof.Machine.execPlx core ecc s
  | .setlen core => Sys2Proof.Machine.execSetlen core s
  | .cvt core ecc => Sys2Proof.Machine.execCvt core ecc s
  | .vopArith core ecc => Sys2Proof.Machine.execVopArith core ecc s
  | .vopFunction core ecc => Sys2Proof.Machine.execVopFunction core ecc s
  | .vopCompare core ecc => Sys2Proof.Machine.execVopCompare core ecc s
  | .rqnt core ecc => Sys2Proof.Machine.execRqnt core ecc s
  | .softmax core ecc => Sys2Proof.Machine.execSoftmax core ecc s
  | .layernorm core ecc => Sys2Proof.Machine.execLayernorm core ecc s
  | .nms core ecc => Sys2Proof.Machine.execNms core ecc s
  | .vrdReduce core ecc => Sys2Proof.Machine.execVrdReduce core ecc s
  | .topk core ecc => Sys2Proof.Machine.execTopk core ecc s
  | .ldt core => Sys2Proof.Machine.execLdt core s
  | .stt core ecc => Sys2Proof.Machine.execStt core ecc s
  | .shl core ecc => Sys2Proof.Machine.execShl core ecc s
  | .wms core => Sys2Proof.Machine.execWms core s
  | .wmw core => Sys2Proof.Machine.execWmw core s
  | .gate core => Sys2Proof.Machine.execGate core s
  | .cfaFetchAdd core => Sys2Proof.Machine.execCfaFetchAdd core s
  | .cfaLoad core => Sys2Proof.Machine.execCfaLoad core s
  | .cfaInit core => Sys2Proof.Machine.execCfaInit core s
  | .dgp core => Sys2Proof.Machine.execDgp core s
  | .tileEnd core => Sys2Proof.Machine.execTileEnd core s
  | .transferDataLand core place ck => Sys2Proof.Machine.execTransferDataLand core place ck s
  | .transferRelease core place => Sys2Proof.Machine.execTransferRelease core place s
  | .gateOpen job => Sys2Proof.Machine.execGateOpen job s
  | .jobStart part => Sys2Proof.Machine.execJobStart part s
  | .jobComplete job => Sys2Proof.Machine.execJobComplete job s
  | .replayEvent core facts => Sys2Proof.Machine.execReplayEvent core facts s
  | .replayResume job => Sys2Proof.Machine.execReplayResume job s
  | .watchdog job => Sys2Proof.Machine.execWatchdog job s
  | .saveComplete job => Sys2Proof.Machine.execSaveComplete job s
  | .restoreComplete job => Sys2Proof.Machine.execRestoreComplete job s
  | .evict part => Sys2Proof.Machine.execEvict part s
  | .musterStart => Sys2Proof.Machine.execMusterStart s
  | .refreshLull owner => Sys2Proof.Machine.execRefreshLull owner s
  | .retrainLull owner => Sys2Proof.Machine.execRetrainLull owner s
  | .forcedLull owner => Sys2Proof.Machine.execForcedLull owner s
  | .lullEnd owner => Sys2Proof.Machine.execLullEnd owner s
  | .hbmReadRetry pc addr outcome reader => Sys2Proof.Machine.execHbmReadRetry pc addr outcome reader s
  | .patrolScrub pc addr outcome => Sys2Proof.Machine.execPatrolScrub pc addr outcome s
  | .migrationStart channel retrainFailed => Sys2Proof.Machine.execMigrationStart channel retrainFailed s
  | .migrationCopyDone => Sys2Proof.Machine.execMigrationCopyDone s
  | .streamOpen fn stream tag => Sys2Proof.Machine.execStreamOpen fn stream tag s
  | .streamClose fn stream tag => Sys2Proof.Machine.execStreamClose fn stream tag s
  | .streamCloseComplete stream => Sys2Proof.Machine.execStreamCloseComplete stream s
  | .clearHeavy fn stream tag => Sys2Proof.Machine.execClearHeavy fn stream tag s
  | .heavyLogRead fn half => Sys2Proof.Machine.execHeavyLogRead fn half s
  | .chunkFetched stream serial frames => Sys2Proof.Machine.execChunkFetched stream serial frames s
  | .pictureReady stream serial => Sys2Proof.Machine.execPictureReady stream serial s
  | .decodeStart engine => Sys2Proof.Machine.execDecodeStart engine s
  | .budgetPassed engine => Sys2Proof.Machine.execBudgetPassed engine s
  | .pictureAbandon stream serial byteOffset units headers corrupt => Sys2Proof.Machine.execPictureAbandon stream serial byteOffset units headers corrupt s
  | .concealCopyDone => Sys2Proof.Machine.execConcealCopyDone s
  | .decodeComplete engine facts => Sys2Proof.Machine.execDecodeComplete engine facts s
  | .pictureGoForward stream => Sys2Proof.Machine.execPictureGoForward stream s
  | .cacheTtlExpire cls buf => Sys2Proof.Machine.execCacheTtlExpire cls buf s
  | .clipStart fn route picture tag => Sys2Proof.Machine.execClipStart fn route picture tag s
  | .clipStop fn route picture tag => Sys2Proof.Machine.execClipStop fn route picture tag s
  | .encodeStart engine => Sys2Proof.Machine.execEncodeStart engine s
  | .encodeComplete engine serial => Sys2Proof.Machine.execEncodeComplete engine serial s
  | .evidenceFlush queue entry => Sys2Proof.Machine.execEvidenceFlush queue entry s
  | .routeBind fn route tag => Sys2Proof.Machine.execRouteBind fn route tag s
  | .routeUnbind fn route tag => Sys2Proof.Machine.execRouteUnbind fn route tag s
  | .pscPassStart unit => Sys2Proof.Machine.execPscPassStart unit s
  | .pscPassCommit unit => Sys2Proof.Machine.execPscPassCommit unit s
  | .cropTaskStart unit => Sys2Proof.Machine.execCropTaskStart unit s
  | .cropTaskDone unit => Sys2Proof.Machine.execCropTaskDone unit s
  | .trackerPicture stream slot => Sys2Proof.Machine.execTrackerPicture stream slot s
  | .recordWrite queue => Sys2Proof.Machine.execRecordWrite queue s
  | .overflowDrain queue => Sys2Proof.Machine.execOverflowDrain queue s
  | .verdictQuery frame => Sys2Proof.Machine.execVerdictQuery frame s
  | .zoneSelect fn zone => Sys2Proof.Machine.execZoneSelect fn zone s
  | .waybillSigned => Sys2Proof.Machine.execWaybillSigned s
  | .musterArm value => Sys2Proof.Machine.execMusterArm value s
  | .musterFire => Sys2Proof.Machine.execMusterFire s
  | .musterPulse arrivalPs phasePs => Sys2Proof.Machine.execMusterPulse arrivalPs phasePs s
  | .mismatchReport value => Sys2Proof.Machine.execMismatchReport value s
  | .charterLoad tag => Sys2Proof.Machine.execCharterLoad tag s
  | .charterDiscard tag => Sys2Proof.Machine.execCharterDiscard tag s
  | .charterSeal tag => Sys2Proof.Machine.execCharterSeal tag s
  | .charterUnload tag => Sys2Proof.Machine.execCharterUnload tag s
  | .preempt fn job tag => Sys2Proof.Machine.execPreempt fn job tag s
  | .resume fn job tag => Sys2Proof.Machine.execResume fn job tag s
  | .cancel fn job tag => Sys2Proof.Machine.execCancel fn job tag s
  | .ctxQuery fn job tag => Sys2Proof.Machine.execCtxQuery fn job tag s
  | .partitionReset fn part => Sys2Proof.Machine.execPartitionReset fn part s
  | .waymarkSignal fn waymark add => Sys2Proof.Machine.execWaymarkSignal fn waymark add s
  | .depotAllocate depot want tagBad => Sys2Proof.Machine.execDepotAllocate depot want tagBad s
  | .freeListRebuildDone depot => Sys2Proof.Machine.execFreeListRebuildDone depot s
  | .doorbellWrite fn queue half value => Sys2Proof.Machine.execDoorbellWrite fn queue half value s
  | .sqFetch queue entries => Sys2Proof.Machine.execSqFetch queue entries s
  | .fetchCompletionError what => Sys2Proof.Machine.execFetchCompletionError what s
  | .queueEnable fn queue tag => Sys2Proof.Machine.execQueueEnable fn queue tag s
  | .queueDisable fn queue tag => Sys2Proof.Machine.execQueueDisable fn queue tag s
  | .cqDisableComplete queue => Sys2Proof.Machine.execCqDisableComplete queue s
  | .queueQuery fn queue tag => Sys2Proof.Machine.execQueueQuery fn queue tag s
  | .queueReset fn queue tag => Sys2Proof.Machine.execQueueReset fn queue tag s
  | .tableBaseWrite fn table half value => Sys2Proof.Machine.execTableBaseWrite fn table half value s
  | .errorLogRead fn half => Sys2Proof.Machine.execErrorLogRead fn half s
  | .bar2Read fn addr len => Sys2Proof.Machine.execBar2Read fn addr len s
  | .bar2Write fn addr data poisoned => Sys2Proof.Machine.execBar2Write fn addr data poisoned s
  | .msixCoalesceTimeout queue => Sys2Proof.Machine.execMsixCoalesceTimeout queue s
  | .msixUnmask fn vec => Sys2Proof.Machine.execMsixUnmask fn vec s
  | .atsInvalidate fn tag page => Sys2Proof.Machine.execAtsInvalidate fn tag page s
  | .l1Entry => Sys2Proof.Machine.execL1Entry s
  | .l0pNarrow => Sys2Proof.Machine.execL0pNarrow s
  | .linkDown => Sys2Proof.Machine.execLinkDown s
  | .hotReset => Sys2Proof.Machine.execHotReset s
  | .vfEnableClear => Sys2Proof.Machine.execVfEnableClear s
  | .d3hotEntry fn => Sys2Proof.Machine.execD3hotEntry fn s
  | .bmeClear fn => Sys2Proof.Machine.execBmeClear fn s
  | .bmeSet fn => Sys2Proof.Machine.execBmeSet fn s
  | .flr fn => Sys2Proof.Machine.execFlr fn s
  | .sleep tag => Sys2Proof.Machine.execSleep tag s
  | .wake tag => Sys2Proof.Machine.execWake tag s
  | .drainComplete => Sys2Proof.Machine.execDrainComplete s
  | .noticeCommit timestamp => Sys2Proof.Machine.execNoticeCommit timestamp s
  | .filterWrite value => Sys2Proof.Machine.execFilterWrite value s
  | .wakeTimer => Sys2Proof.Machine.execWakeTimer s
  | .wakeComplete => Sys2Proof.Machine.execWakeComplete s
  | .throttleUpdate facts => Sys2Proof.Machine.execThrottleUpdate facts s
  | .coolantSample facts => Sys2Proof.Machine.execCoolantSample facts s
  | .thermalTrip => Sys2Proof.Machine.execThermalTrip s
  | .refLost => Sys2Proof.Machine.execRefLost s
  | .refReturn => Sys2Proof.Machine.execRefReturn s
  | .leewardRailUp => Sys2Proof.Machine.execLeewardRailUp s
  | .leewardRailDown => Sys2Proof.Machine.execLeewardRailDown s
  | .pwrgoodMainAssert => Sys2Proof.Machine.execPwrgoodMainAssert s
  | .pwrgoodMainDeassert => Sys2Proof.Machine.execPwrgoodMainDeassert s
  | .railUndervoltage leeward => Sys2Proof.Machine.execRailUndervoltage leeward s
  | .resetNAssert => Sys2Proof.Machine.execResetNAssert s
  | .perstAssert => Sys2Proof.Machine.execPerstAssert s
  | .globalColdReset value => Sys2Proof.Machine.execGlobalColdReset value s
  | .bootComplete => Sys2Proof.Machine.execBootComplete s
  | .update tag image => Sys2Proof.Machine.execUpdate tag image s
  | .recover tag image => Sys2Proof.Machine.execRecover tag image s
  | .selftest tag bad => Sys2Proof.Machine.execSelftest tag bad s
  | .dump tag stewards => Sys2Proof.Machine.execDump tag stewards s
  | .stewardWatchdog steward => Sys2Proof.Machine.execStewardWatchdog steward s
  | .healthStoreWrite => Sys2Proof.Machine.execHealthStoreWrite s
  | .healthRingSet half value => Sys2Proof.Machine.execHealthRingSet half value s
  | .spdmRequest request nonce => Sys2Proof.Machine.execSpdmRequest request nonce s
  | .perstDeassert => Sys2Proof.Machine.execPerstDeassert s
  | .resetNDeassert => Sys2Proof.Machine.execResetNDeassert s
  | .pcieLinkUp speed width flit => Sys2Proof.Machine.execPcieLinkUp speed width flit s
  | .verdictLinkUp fecDegraded => Sys2Proof.Machine.execVerdictLinkUp fecDegraded s
  | .verdictLinkDown => Sys2Proof.Machine.execVerdictLinkDown s
  | .ethModAbsChange high => Sys2Proof.Machine.execEthModAbsChange high s
  | .d3hotExit fn => Sys2Proof.Machine.execD3hotExit fn s
  | .vfEnableSet count => Sys2Proof.Machine.execVfEnableSet count s
  | .memorySpaceEnableWrite fn on => Sys2Proof.Machine.execMemorySpaceEnableWrite fn on s
  | .refreshLullEnd owner => Sys2Proof.Machine.execRefreshLullEnd owner s
  | .retrainDue owner => Sys2Proof.Machine.execRetrainDue owner s
  | .stewardRestartDone steward => Sys2Proof.Machine.execStewardRestartDone steward s
  | .charterCommandDone => Sys2Proof.Machine.execCharterCommandDone s
  | .secCommandDone => Sys2Proof.Machine.execSecCommandDone s

end Sys2Proof.Machine
end

