-- ==== Sys2Proof/Machine/Reads.lean ====
section
/-! DEFINITION. What a read returns: the configuration space's identifiers (R1, R432), and every register of the map for
the PF and for a VF (R10 to R12, R512 to R524). A register's word is a sum of fields; what no field fills is 0 (R12). -/

namespace Sys2Proof.Machine

/-- A field of `w` bits at bit `lo` of a register. -/
def fld (lo w v : Nat) : Nat := v % 2 ^ w * 2 ^ lo

/-- A flag at bit `lo`. -/
def flag (lo : Nat) (b : Bool) : Nat := b2n b * 2 ^ lo

/-! ### Configuration space (R1, R432, R436) -/

/-- Vendor ID, Device ID of the PF and of a VF, Revision ID (R1), and the class code (R432). -/
def vendorId : Nat := 0x1FB8
def devId (f : Nat) : Nat := if f = 0 then 0x6800 else 0x6801
def revisionId : Nat := 0xB0
def classCode : Nat := 0x120000

/-- Subsystem Vendor ID and Subsystem ID, from the board data (R432, R489). -/
def Dev.subsystem (d : Dev) : Nat := ofLe (memBytes d.sec.flash 0x2020004 4)

/-- Sizes of a function's BARs, by the number of the BAR's low half; 0 where it has none (R436). -/
def barSize (f bar : Nat) : Nat :=
  match bar with
  | 0 => if f = 0 then 0x4000000 else 0x100000
  | 2 => if f = 0 then 0x1000000000 else 0x400000000
  | 4 => if f = 0 then 0x800000 else 0
  | _ => 0

/-- What BAR `bar` reads back once all ones were written to it: its fixed low bits, and the bits that can be written
(R436, R437). -/
def barSizing (f bar : Nat) : Nat :=
  if barSize f bar = 0 then 0 else 2 ^ 64 - barSize f bar + 4 + (if bar = 2 then 8 else 0)

/-- An identification dword of a function's configuration space: 0x00, 0x08 or 0x2C. It is answered once firmware is ready;
before, a Request Retry Status is (R487). -/
def Dev.configId (d : Dev) (f off : Nat) : Option Nat :=
  match d.boot with
  | .held | .booting _ _ => none
  | _ =>
    if !(d.fn f).present then none
    else match off with
      | 0x00 => some (vendorId + devId f * 2 ^ 16)
      | 0x08 => some (revisionId + classCode * 2 ^ 8)
      | 0x2C => some d.subsystem
      | _ => none

/-- The Device Serial Number capability (R432, R503). -/
def serialNumber : Nat := deviceId

/-! ### GLB (R518 to R524) -/

/-- GLB_ID (R519). -/
def glbId (f : Nat) : Nat :=
  fld 0 16 vendorId + fld 16 16 (devId f) + fld 32 8 revisionId + fld 40 4 6 + fld 44 4 8 + fld 48 4 8 + fld 52 2 2 + fld 56 3 6

/-- GLB_VERSION (R520). -/
def glbVersion : Nat := fld 0 16 1 + fld 16 32 Config.romVersion.toNat + fld 48 8 revisionId

/-- STATE of LWD_STATUS (R482). -/
def DevState.code : DevState → Nat
  | .leeward => 1
  | .waking => 2
  | .draining => 3
  | _ => 0

/-- GLB_STATUS (R521). -/
def Dev.glbStatusWord (d : Dev) (f : Nat) : Nat :=
  fld 0 2 d.lwd.st.code + fld 2 2 d.charter.st.code +
    (if f = 0 then flag 4 d.sec.recovery + flag 5 d.lwd.tripped + flag 6 d.resetRefused else 0)

/-- GLB_LAST_RESET (R522). -/
def Dev.lastReset (d : Dev) (f : Nat) : Nat := if f = 0 then fld 0 3 d.lwd.bootCause + fld 32 32 d.lwd.boots else 0

def Dev.glbRead (d : Dev) (f : Nat) : Nat → Nat
  | 0x00 => glbId f
  | 0x08 => glbVersion
  | 0x10 => d.glbStatusWord f
  | 0x18 => d.lastReset f
  | 0x28 => (d.fn f).scratch
  | _ => 0

/-! ### CLK and LWD (R480 to R485) -/

/-- Counter `k` of a list. -/
def nth (l : List Nat) (k : Nat) : Nat := (l[k]?).getD 0

/-- CLK_STATUS (R481). -/
def Clk.status (c : Clk) : Nat :=
  fld 0 11 c.power + fld 16 7 c.level + fld 24 8 c.tjMax + flag 32 c.powerProt + flag 33 c.thermalProt +
    flag 34 c.capUnmet + flag 35 c.pllLock + flag 36 c.refLostFlag

def Clk.read (c : Clk) : Nat → Nat
  | 0x00 => c.status
  | 0x08 => c.policy
  | 0x10 => c.ovrThermal
  | 0x18 => c.ovrPower
  | 0x20 => c.ovrHrd
  | 0x28 => c.capUnmetCnt
  | 0x30 => c.gatedNs
  | _ => 0

/-- LWD_STATUS (R482). -/
def Lwd.status (l : Lwd) : Nat :=
  fld 0 2 l.st.code + fld 4 4 l.result + fld 8 8 l.tag + fld 16 3 l.cause + flag 19 l.woke + flag 20 l.tripped +
    fld 32 12 l.wakeFilter

/-- LWD_FILTER_AVG of a filter (R484). -/
def Filter.avgWord (g : Filter) : Nat := fld 0 32 g.avg + fld 32 4 g.hits + fld 40 24 g.baseline

def Lwd.read (l : Lwd) : Nat → Nat
  | 0x08 => l.status
  | 0x10 => l.ms
  | 0x18 => l.wakeAt
  | 0x30 => l.filterSel
  | 0x38 => (l.filter l.filterSel).cfg
  | 0x40 => (l.filter l.filterSel).bounds
  | 0x48 => (l.filter l.filterSel).avgWord
  | 0x50 => l.coolant
  | 0x58 => l.coolantPolicy
  | 0x60 => l.notices
  | 0x68 => l.ignored
  | 0x70 => l.asleep
  | _ => 0

/-! ### SEC (R508 to R511) -/

/-- SEC_BOOT_STATUS (R509). -/
def Dev.bootStatus (d : Dev) : Nat :=
  let s := d.sec
  let r := fun (g : Running → Nat) => (s.running.map g).getD 0
  fld 0 1 (r (·.bank)) + flag 1 s.fallback + flag 2 s.recovery + flag 3 (s.running.any (·.host)) + flag 4 s.otherValid +
    fld 8 8 (min 255 (d.mem.repairs.filter fun x => !x.hard).length) + fld 16 8 (r (·.rollback)) + fld 32 32 (r (·.seq))

/-- SEC_CMD_STS (R510). -/
def Sec.status (s : Sec) : Nat :=
  flag 0 s.cmd.isSome + flag 1 s.dropped + fld 4 4 s.result + fld 8 8 s.tag + fld 16 4 s.check + fld 32 32 s.detail

def Dev.secRead (d : Dev) (x : Nat) : Nat :=
  let s := d.sec
  let ver := fun (k : Nat) => nth ((s.running.map (·.vers)).getD []) k
  match x with
  | 0x00 => d.bootStatus
  | 0x08 => fld 0 32 (ver 0) + fld 32 32 (ver 1)
  | 0x10 => fld 0 32 (ver 2)
  | 0x18 => s.keySlots
  | 0x20 => deviceId
  | 0x30 => s.status
  | 0x38 => s.addr
  | 0x40 => s.len
  | 0x48 => s.ring
  | 0x50 => fld 0 32 s.seq
  | 0x58 => s.lost
  | 0x60 => s.restarts
  | _ => 0

/-! ### HIF and MSI-X (R436, R458 to R463) -/

/-- HIF_LINK_STATUS (R459). -/
def Link.status (l : Link) : Nat :=
  fld 0 3 l.speed + fld 3 5 l.width + fld 8 5 l.l0pLanes + flag 13 l.flit + flag 14 l.degraded + fld 15 3 l.ltssm

/-- BUSY and DROPPED of a command register. -/
def CmdSts.head (c : CmdSts) (now : Nat) : Nat := flag 0 (c.busyAt now) + flag 1 c.dropped

/-- HIF_QUEUE_STS (R461). -/
def CmdSts.queueWord (c : CmdSts) (now : Nat) : Nat :=
  c.head now + fld 2 2 c.a + fld 4 4 c.result + fld 8 8 c.tag + fld 32 32 c.b

/-- The HIF page of function `f`: the link's registers are the PF's (R458). -/
def Dev.hifRead (d : Dev) (f x : Nat) : Nat :=
  let u := d.fn f
  match x with
  | 0x00 => if f = 0 then d.link.status else 0
  | 0x08 => if f = 0 then d.link.powerCtl else 0
  | 0x10 => u.qdBase
  | 0x20 => u.queueSts.queueWord d.ticks
  | 0x28 => u.eventVec
  | 0x30 => nth u.apertures 0
  | 0x38 => if f = 0 then nth u.apertures 1 else 0
  | 0x40 => if f = 0 then nth u.apertures 2 else 0
  | 0x48 => if f = 0 then nth u.apertures 3 else 0
  | 0x50 => u.errorWord
  | 0x58 => u.bar2Denied
  | 0x60 => u.doorbellErrors
  | 0x68 => u.fetchErrors
  | _ => 0

/-- The MSI-X table: 16 B an entry. -/
def Fn.msixRead (u : Fn) (x : Nat) : Nat :=
  let e := u.entry (x / 16)
  if x % 16 = 0 then e.addr else fld 0 32 e.data + fld 32 1 e.ctl

/-- The pending bits of 64 vectors (R436). -/
def Fn.pbaRead (u : Fn) (x : Nat) : Nat := sum ((u.pba.filter fun v => v / 64 == x / 8).map fun v => 2 ^ (v % 64))

/-! ### DSP and waymarks (R377 to R381, R280, R283) -/

/-- DSP_CHARTER_STS (R378). -/
def CharterSt.status (c : CharterSt) : Nat :=
  flag 0 c.busy.isSome + flag 1 c.dropped + fld 4 2 c.st.code + fld 8 4 c.result + fld 16 8 c.tag + fld 24 8 c.section_ +
    fld 32 12 c.entry

/-- DSP_CHARTER_DIGEST `k` (R377). -/
def CharterSt.digestWord (c : CharterSt) (k : Nat) : Nat :=
  match c.cur with
  | some g => ofLe ((g.digest.drop (8 * k)).take 8)
  | none => 0

/-- DSP_CTX_STS (R379). -/
def CmdSts.ctxWord (c : CmdSts) (now : Nat) : Nat :=
  c.head now + fld 8 4 c.result + fld 12 4 c.a + fld 16 8 c.tag + fld 32 32 c.b

/-- The DSP page without its blocks; the charter's command status is the PF's. -/
def Dev.dspRead (d : Dev) (f x : Nat) : Nat :=
  if x = 0x08 then (if f = 0 then d.charter.status else 0)
  else if 0x10 ≤ x ∧ x < 0x40 ∧ x % 8 = 0 then d.charter.digestWord (x / 8 - 2)
  else if x = 0x48 then (d.fn f).ctxSts.ctxWord d.ticks
  else 0

def Fn.dspRead (u : Fn) (x : Nat) : Nat := if x ≤ 0x20 ∧ x % 8 = 0 then nth u.dspCnt (x / 8) else 0

/-- DSP_P_CONFIG (R380). -/
def Part.config (p : Part) : Nat :=
  if p.defined then fld 0 6 p.mask + fld 8 3 p.owner + fld 16 10 p.b + fld 32 13 p.maxCtx else 0

/-- A job holds cores. -/
def Dev.resident (d : Dev) (j : Nat) : Bool := d.cores.any (·.job == some j)

/-- DSP_P_STATE (R380). -/
def Dev.partState (d : Dev) (p : Part) : Nat :=
  let here := (d.partCtxs p.id).filter fun x => d.resident x.entry.id
  fld 0 6 (coreMask (d.freeCores p)) + fld 8 3 here.length + fld 16 13 ((d.partCtxs p.id).length - here.length) +
    fld 32 32 (min (2 ^ 32 - 1) p.list.length)

def Dev.partBlock (d : Dev) (p : Part) : Nat → Nat
  | 0x00 => p.config
  | 0x08 => if p.defined then d.partState p else 0
  | 0x10 => p.faultRing
  | 0x18 => p.slipRing
  | 0x20 => p.save
  | 0x28 => p.overwrite
  | _ => 0

/-- WMK_VALUE (R283). -/
def Dev.wmkRead (d : Dev) (w x : Nat) : Nat :=
  if x = 0 then fld 0 32 (d.wmkAt w).count + flag 32 (d.wmkAt w).counter + flag 33 (d.wmPrivate w) else 0

/-! ### DEP and MEM (R400 to R403, R427, R428) -/

/-- An allocation from a depot waits (R387, R403). -/
def Dev.allocWaits (d : Dev) (id : Nat) : Bool :=
  if id < 0x10 then
    d.video.streams.any fun s => s.cls == id && !d.canTarget s && s.pics.any fun p => p.phase == .ready
  else
    match depotPart id with
    | none => false
    | some p =>
      let io := id == inputDepot p || id == outputDepot p
      io && ((d.video.passes.any fun x => x.inBuf.isNone && d.passValid x && d.passPart x == p && (d.grantPass x).isNone) ||
        d.trk.steps.any fun s => s.part == p && s.waits && (d.issueJob s.id).isNone) ||
      (id == inputDepot p && d.video.cropTasks.any fun t => t.part == p && t.dstBuf.isNone && (d.grantCrop t).isNone)

/-- DEP_D_BASE (R401); where a depot of the common pool lies is a free value (log 12). -/
def Depot.baseWord (x : Depot) : Nat :=
  if (depotPart x.id).isSome then fld 0 48 x.base else fld 0 48 (Config.depotBase x.id).toNat + flag 48 true

def Dev.depRead (d : Dev) (id o : Nat) : Nat :=
  match d.depot? id with
  | none => 0
  | some x =>
    match o with
    | 0x00 => fld 0 18 x.bufKib + fld 32 32 x.count
    | 0x08 => x.baseWord
    | 0x10 => fld 0 32 x.level + fld 32 32 x.freeCount
    | 0x18 => flag 0 x.h1 + flag 1 x.h2 + flag 2 x.seen1 + flag 3 x.seen2 + flag 4 x.rebuild + flag 5 (d.allocWaits id)
    | 0x20 => x.peak
    | 0x28 => x.ev1
    | 0x30 => x.ev2
    | 0x38 => x.tagErr
    | _ => 0

/-- MEM_MC_STATUS of a controller: HOT above 85 °C (R415, R428). -/
def Mc.status (m : Mc) : Nat := fld 0 8 m.temp + flag 8 (decide (85 < m.temp)) + flag 9 m.degraded

def Dev.mcRead (d : Dev) (n x : Nat) : Nat :=
  let m := (d.mem.mcs[n]?).getD Mc.reset
  match x with
  | 0x00 => m.status
  | 0x08 => m.corrected
  | 0x10 => m.retried
  | 0x18 => m.lost
  | 0x20 => m.lastError
  | 0x28 => (d.mem.repairs.filter fun r => r.pc / 32 == n).length
  | _ => 0

/-- MEM_POLICY: the MEMORY section in force, or the values without one (R419, R428). -/
def Dev.memPolicy (d : Dev) : Nat :=
  match (if d.sealed then d.charter.cur else none) with
  | some c => fld 0 8 c.retrainMs + fld 8 8 c.forceMs + fld 16 8 c.scrubHours
  | none => fld 0 8 20 + fld 8 8 80 + fld 16 8 24

/-- MEM_SPARE (R428). -/
def Memory.spareWord (m : Memory) : Nat :=
  fld 0 8 m.spares.length + (match m.migration with
    | some g => flag 8 true + fld 9 7 g.src + fld 16 7 g.dst
    | none => 0)

/-- MEM_P_RETRAIN, and MEM_COMMON_RETRAIN (R428). -/
def Retrain.word (r : Retrain) (now : Nat) : Nat := fld 0 32 ((now - r.lastTick) / msTicks) + flag 32 r.pending

/-- MEM_P of partition `p`. -/
def Dev.memPRead (d : Dev) (p o : Nat) : Nat :=
  match d.part? p, o with
  | some x, 0x00 => x.retrain.word d.ticks
  | some x, 0x08 => x.forced
  | _, _ => 0

def Dev.memRead (d : Dev) (x : Nat) : Nat :=
  if 0x8000 ≤ x ∧ x < 0x9000 then
    if x = 0x8000 then d.memPolicy
    else if x = 0x8008 then d.mem.spareWord
    else if 0x8100 ≤ x ∧ x < 0x81C0 then d.memPRead ((x - 0x8100) / 0x20) (x % 0x20)
    else if x = 0x81C0 then (if d.sealed then d.mem.commonRetrain.word d.ticks else 0)
    else 0
  else d.mcRead (x / 0x20000) (x % 0x20000)

/-! ### VDEC, VENC, PRE, CRU (R92 to R96, R119 to R122, R137 to R141, R241 to R244) -/

/-- VDEC_ENG_STATE (R96) and VDEC_ENG_BUSY_VK (R92), which counts the picture in decode. -/
def Dev.vdecEngRead (d : Dev) (e : VdecEngine) : Nat → Nat
  | 0 => flag 0 e.job.isSome + fld 16 14 e.lastStream + fld 32 32 (d.decodeSoFar e)
  | 8 => satAdd 64 e.busyVk (if e.job.isSome then d.decodeSoFar e else 0)
  | _ => 0

/-- VDEC_STREAM_STS (R94). -/
def CmdSts.streamWord (c : CmdSts) (now : Nat) : Nat := c.head now + fld 8 4 c.result + fld 24 8 c.tag + fld 32 14 c.a

def Dev.vdecRead (d : Dev) (f x : Nat) : Nat :=
  let u := d.fn f
  if x = 0x08 then u.streamSts.streamWord d.ticks
  else if x = 0x10 then fld 0 64 (vkNow d)
  else if x = 0x18 then u.heavyWord
  else if x = 0x20 then u.vdecBase
  else if 0x28 ≤ x ∧ x ≤ 0x58 ∧ x % 8 = 0 then nth u.vdecCnt (x / 8 - 5)
  else 0

/-- VENC_ENG_STATE (R122) and VENC_ENG_BUSY_VK (R119) of engine `n`. -/
def Dev.vencEngRead (d : Dev) (n : Nat) (e : VencEngine) : Nat → Nat
  | 0 => flag 0 e.job.isSome + fld 6 6 (d.video.clipsOn n).length + fld 16 16 e.lastRoute + fld 32 32 (d.codeSoFar e)
  | 8 => satAdd 64 e.busyVk (if e.job.isSome then d.codeSoFar e else 0)
  | _ => 0

/-- VENC_CLIP_STS (R121). -/
def CmdSts.clipWord (c : CmdSts) (now : Nat) : Nat :=
  c.head now + fld 8 4 c.result + fld 24 8 c.tag + fld 32 16 c.a + fld 48 1 c.b

def Dev.vencRead (d : Dev) (f x : Nat) : Nat :=
  let u := d.fn f
  if x = 0x08 then u.clipSts.clipWord d.ticks
  else if x = 0x10 then u.vencBase
  else if 0x18 ≤ x ∧ x ≤ 0x30 ∧ x % 8 = 0 then nth u.vencCnt (x / 8 - 3)
  else 0

/-- PRE_ROUTE_STS (R139). -/
def CmdSts.routeWord (c : CmdSts) (now : Nat) : Nat :=
  c.head now + fld 8 4 c.result + fld 12 4 c.b + fld 24 8 c.tag + fld 32 16 c.a

def Dev.preRead (d : Dev) (f x : Nat) : Nat :=
  let u := d.fn f
  if x = 0x08 then u.routeSts.routeWord d.ticks
  else if x = 0x10 then u.preBase
  else if 0x18 ≤ x ∧ x ≤ 0x28 ∧ x % 8 = 0 then nth u.preCnt (x / 8 - 3)
  else if 0x100 ≤ x ∧ x < 0x300 ∧ x % 8 = 0 then
    let n := u.normSet ((x - 0x100) / 0x20)
    if x % 0x20 = 0x18 then n.pad else nth n.ch (x % 0x20 / 8)
  else 0

/-- PRE_PSC_STATE (R141) and PRE_PSC_BUSY_VK (R137). -/
def Dev.pscRead (d : Dev) (u : PscUnit) : Nat → Nat
  | 0 => flag 0 u.pass.isSome + fld 16 16 u.lastRoute + fld 32 32 (d.passSoFar u)
  | 8 => satAdd 64 u.busyVk (if u.pass.isSome then d.passSoFar u else 0)
  | _ => 0

def Fn.cruRead (u : Fn) (x : Nat) : Nat := if x ≤ 0x18 ∧ x % 8 = 0 then nth u.cruCnt (x / 8) else 0

/-- CRU_STATE (R244) and CRU_BUSY_CK (R241) of unit `n`. -/
def Dev.cruUnitRead (d : Dev) (n : Nat) (u : CruUnit) (x : Nat) : Nat :=
  match x, d.cropOn n with
  | 0, some t => flag 0 true + flag 1 t.picture + fld 16 13 (d.cropBoxNow t) + fld 32 16 u.lastRoute
  | 0, none => fld 32 16 u.lastRoute
  | 8, some t => satAdd 64 u.busyCk (d.cropSoFar t)
  | 8, none => u.busyCk
  | _, _ => 0

/-! ### TRK, VPT, DAU (R314 to R319, R339 to R344) -/

/-- A big-endian field of a latched entry. -/
def entryField (e : List Byte) (o n : Nat) : Nat := ofBe ((e.drop o).take n)

/-- TRK_ZONE_DATA0 and TRK_ZONE_DATA1: the latched entry of R306, and the zone latched (R316). -/
def Fn.zoneData0 (u : Fn) : Nat :=
  fld 0 16 (entryField u.zoneData 2 2) + fld 16 8 (entryField u.zoneData 4 1) + fld 24 16 (entryField u.zoneData 6 2) +
    fld 40 16 (entryField u.zoneData 8 2)
def Fn.zoneData1 (u : Fn) : Nat := fld 0 32 (entryField u.zoneData 12 4) + fld 32 12 u.zoneSel

def Dev.trkRead (d : Dev) (f x : Nat) : Nat :=
  let u := d.fn f
  if x = 0 then u.zoneSel
  else if x = 0x08 then u.zoneData0
  else if x = 0x10 then u.zoneData1
  else if 0x18 ≤ x ∧ x ≤ 0x30 ∧ x % 8 = 0 then nth u.trkCnt (x / 8 - 3)
  else if x = 0x38 then fld 0 17 (d.trackUse f) + fld 32 17 (((d.funcCfg? f).map (·.quota)).getD 0)
  else 0

/-- VPT_STATUS (R319). -/
def Vpt.status (v : Vpt) (now : Nat) : Nat := flag 0 v.linkUp + flag 1 v.fecDegraded + fld 8 5 (v.waiting now).length

def Vpt.read (v : Vpt) (now : Nat) : Nat → Nat
  | 0x00 => v.ctl
  | 0x08 => v.status now
  | 0x10 => fld 0 48 (ofBe v.mac)
  | 0x18 => v.queries
  | 0x20 => v.dropped
  | 0x28 => v.bad
  | 0x30 => v.other
  | 0x38 => v.worstNs
  | _ => 0

def Part.dauRead (p : Part) : Nat → Nat
  | 0x00 => p.dauCtl
  | 0x08 => p.wbRing
  | 0x10 => p.dgRing
  | 0x18 => fld 0 32 p.wbNext
  | 0x20 => fld 0 64 p.dgNext
  | 0x28 => p.dauOverwrite
  | _ => 0

/-- DAU_MUSTER_STS (R343). -/
def Dau.status (u : Dau) : Nat :=
  flag 0 (bitAt u.ctl 0) + flag 1 u.missed + flag 2 u.lateStart + flag 3 u.marginLow + fld 32 32 u.epoch

def Dev.dauRead (d : Dev) : Nat → Nat
  | 0x00 => d.dau.ctl
  | 0x08 => d.dau.status
  | 0x10 => fld 0 16 d.dau.arrival + fld 16 16 d.dau.phase
  | 0x18 => fld 0 64 d.musterCk
  | 0x20 => d.dau.signSkipped
  | _ => 0

/-! ### Core windows (R514: R280 to R282, R162 to R165, R184, R214, R215, R241 to R243) -/

/-- The schedule ck that the job on a core has reached. -/
def Dev.coreNow (d : Dev) (k : Core) : Nat := ((k.job.bind d.ctx?).map (·.now)).getD 0

/-- CORE_STATE (R281). -/
def Core.stateWord (k : Core) : Nat :=
  flag 0 k.job.isSome + fld 1 3 k.slot + flag 4 k.run.gate.isSome + fld 8 5 k.run.queue.length + fld 32 32 (k.job.getD 0)

/-- CORE_MXA_LAST_EVENT (R164). -/
def LastEvent.word (e : LastEvent) : Nat :=
  fld 0 4 e.kind + fld 8 6 e.phys + fld 16 5 e.row + fld 24 6 e.column + fld 32 32 e.job

/-- CORE_VXE_STATE (R215). -/
def Dev.vxeState (d : Dev) (k : Core) : Nat :=
  let t := d.coreNow k
  flag 0 (k.job.isSome && decide (t < k.run.vxeFree)) + flag 1 k.vxe.red + fld 2 6 k.vxe.fn + flag 8 k.vxe.wide16 +
    fld 16 16 (if t < k.run.vxeFree then k.vxe.rows.item t else 0) + fld 32 32 (k.job.getD 0)

/-- CORE_WSQ_STATE (R242). -/
def Dev.wsqState (d : Dev) (k : Core) : Nat :=
  let t := d.coreNow k
  flag 0 (k.job.isSome && decide (t < k.run.wsqFree)) + fld 1 2 k.run.wsqOp +
    fld 8 16 (if t < k.run.wsqFree then k.run.wsqChunk.item t else 0) + fld 32 32 (k.job.getD 0)

/-- A core's window: the busy counters without the ck still to come, and CORE_MXA_INJECT as 0 for a VF (R162). -/
def Dev.coreRead (d : Dev) (f n x : Nat) : Nat :=
  match d.cores[n]? with
  | none => 0
  | some k =>
    let ahead := k.run.ahead (d.coreNow k)
    match x with
    | 0x1000 => k.stateWord
    | 0x1008 => fld 0 32 k.run.ip
    | 0x1010 => k.corrected
    | 0x1018 => k.uncorrected
    | 0x2000 => mxaMap ((d.sec.fused[n]?).getD []) k
    | 0x2008 => k.residue
    | 0x2010 => k.replays
    | 0x2018 => k.replayCk
    | 0x2020 => k.holds
    | 0x2028 => k.holdCk
    | 0x2030 => k.lastEvent.word
    | 0x2038 => if f = 0 then k.inject.word else 0
    | 0x2040 => k.arithFlags
    | 0x3000 => d.vxeState k
    | 0x3008 => k.vxeBusy - ahead.1
    | 0x3010 => k.vxeWait
    | 0x4000 => d.wsqState k
    | 0x4008 => k.wsqFlags
    | 0x4010 => k.wsqBusy - ahead.2
    | _ => 0

/-! ### The two maps (R512, R513, R516, R517) -/

/-- Partition `p`, defined or not. -/
def Dev.partAt (d : Dev) (p : Nat) : Part := (d.parts.find? (·.id == p)).getD (Part.reset p)

/-- The 64 bits at an offset of the PF's BAR0, a multiple of 8. -/
def Dev.pfRead (d : Dev) (x : Nat) : Nat :=
  if x < 0x1000 then d.glbRead 0 x
  else if 0x10000 ≤ x ∧ x < 0x11000 then d.clk.read (x - 0x10000)
  else if 0x20000 ≤ x ∧ x < 0x21000 then d.lwd.read (x - 0x20000)
  else if 0x30000 ≤ x ∧ x < 0x31000 then d.secRead (x - 0x30000)
  else if 0x40000 ≤ x ∧ x < 0x41000 then d.hifRead 0 (x - 0x40000)
  else if 0x50000 ≤ x ∧ x < 0x58000 then (d.fn 0).msixRead (x - 0x50000)
  else if 0x58000 ≤ x ∧ x < 0x58100 then (d.fn 0).pbaRead (x - 0x58000)
  else if 0x100000 ≤ x ∧ x < 0x101000 then d.dspRead 0 (x - 0x100000)
  else if 0x101000 ≤ x ∧ x < 0x101700 then (d.fn ((x - 0x101000) / 0x100)).dspRead (x % 0x100)
  else if 0x102000 ≤ x ∧ x < 0x102600 then d.partBlock (d.partAt ((x - 0x102000) / 0x100)) (x % 0x100)
  else if 0x200000 ≤ x ∧ x < 0x300000 then d.wmkRead ((x - 0x200000) / 16) (x % 16)
  else if 0x300000 ≤ x ∧ x < 0x302000 then d.depRead ((x - 0x300000) / 0x40) (x % 0x40)
  else if 0x400000 ≤ x ∧ x < 0x500000 then d.memRead (x - 0x400000)
  else if 0x600000 ≤ x ∧ x < 0x680000 then
    ((d.video.vdec[(x - 0x600000) / 0x10000]?).map fun e => d.vdecEngRead e (x % 0x10000)).getD 0
  else if 0x680000 ≤ x ∧ x < 0x681000 then d.vdecRead 0 (x - 0x680000)
  else if 0x700000 ≤ x ∧ x < 0x720000 then
    ((d.video.venc[(x - 0x700000) / 0x10000]?).map fun e =>
      d.vencEngRead ((x - 0x700000) / 0x10000) e (x % 0x10000)).getD 0
  else if 0x740000 ≤ x ∧ x < 0x741000 then d.vencRead 0 (x - 0x740000)
  else if 0x780000 ≤ x ∧ x < 0x781000 then d.preRead 0 (x - 0x780000)
  else if 0x790000 ≤ x ∧ x < 0x794000 then
    ((d.video.psc[(x - 0x790000) / 0x1000]?).map fun u => d.pscRead u (x % 0x1000)).getD 0
  else if 0x7C0000 ≤ x ∧ x < 0x7C1000 then (d.fn 0).cruRead (x - 0x7C0000)
  else if 0x7D0000 ≤ x ∧ x < 0x7D2000 then
    ((d.video.cru[(x - 0x7D0000) / 0x1000]?).map fun u => d.cruUnitRead ((x - 0x7D0000) / 0x1000) u (x % 0x1000)).getD 0
  else if 0x800000 ≤ x ∧ x < 0x801000 then d.trkRead 0 (x - 0x800000)
  else if 0x900000 ≤ x ∧ x < 0x901000 then d.vpt.read d.ticks (x - 0x900000)
  else if 0xA01000 ≤ x ∧ x < 0xA01180 then (d.partAt ((x - 0xA01000) / 0x40)).dauRead (x % 0x40)
  else if 0xA02000 ≤ x ∧ x < 0xA03000 then d.dauRead (x - 0xA02000)
  else if 0x1000000 ≤ x ∧ x < 0x2800000 then d.coreRead 0 ((x - 0x1000000) / 0x400000) (x % 0x400000)
  else 0

/-- The 64 bits at an offset of VF `f`'s BAR0: its own copies and its own partition's blocks; doorbells read 0 (R437). -/
def Dev.vfRead (d : Dev) (f x : Nat) : Nat :=
  let own := fun (k : Part → Nat) => ((d.ownPart f).map k).getD 0
  if x < 0x1000 then d.glbRead f x
  else if x < 0x2000 then d.hifRead f (x - 0x1000)
  else if x < 0x3000 then d.dspRead f (x - 0x2000)
  else if x < 0x3100 then (d.fn f).dspRead (x - 0x3000)
  else if 0x4000 ≤ x ∧ x < 0x4100 then own fun p => d.partBlock p (x - 0x4000)
  else if 0x5000 ≤ x ∧ x < 0x5040 then own fun p => p.dauRead (x - 0x5000)
  else if 0x6100 ≤ x ∧ x < 0x6120 then own fun p => d.memPRead p.id (x - 0x6100)
  else if 0x8000 ≤ x ∧ x < 0xA000 then
    if d.seesDepot f ((x - 0x8000) / 0x40) then d.depRead ((x - 0x8000) / 0x40) (x % 0x40) else 0
  else if 0xA000 ≤ x ∧ x < 0xB000 then d.vdecRead f (x - 0xA000)
  else if 0xB000 ≤ x ∧ x < 0xC000 then d.vencRead f (x - 0xB000)
  else if 0xC000 ≤ x ∧ x < 0xD000 then d.preRead f (x - 0xC000)
  else if 0xD000 ≤ x ∧ x < 0xE000 then (d.fn f).cruRead (x - 0xD000)
  else if 0xE000 ≤ x ∧ x < 0xF000 then d.trkRead f (x - 0xE000)
  else if 0x10000 ≤ x ∧ x < 0x28000 then
    let n := (x - 0x10000) / 0x4000
    own fun p => if bitAt p.mask n then d.coreRead f n (x % 0x4000 + 0x1000) else 0
  else if 0x40000 ≤ x ∧ x < 0x7E000 then
    own fun p => let i := (x - 0x40000) / 16; if i < p.wmCount then d.wmkRead (p.wmFirst + i) (x % 16) else 0
  else if 0x7E000 ≤ x ∧ x < 0x7E400 then (d.fn f).msixRead (x - 0x7E000)
  else if 0x7F000 ≤ x ∧ x < 0x7F008 then (d.fn f).pbaRead (x - 0x7F000)
  else 0

/-- The 64 bits at an offset of a function's BAR0. -/
def Dev.readWord (d : Dev) (f x : Nat) : Nat := if f = 0 then d.pfRead x else d.vfRead f x

/-- The value a read returns: 64 bits at a multiple of 8, or the 32 bits of a half (R11); a page that is not served reads
as 0 (R469, R494). A read that clears is a command of its own (R95, R463). -/
def Dev.registerRead (d : Dev) (f x : Nat) (h : Half) : Nat :=
  if d.serves f (pageAt f x) then ofLe (halfRead h (d.readWord f x)) else 0

end Sys2Proof.Machine
end

