-- ==== Sys2Proof/Safety.lean ====
section
/-! DEFINITION. What counts as a safe run of the block, in the words the statements use. -/

namespace Sys2Proof

open Sys2Proof.Machine

/-- The command completes on `s`: a next state whose queue of commands is as it was, and `P` of its device. -/
def Completes (c : Instr) (s : State) (P : Dev → Prop) : Prop := ∃ d : Dev, exec c s = .next (s.withDev d) ∧ P d

/-- Every command that waits is well formed. -/
def QueueWf (s : State) : Prop := ∀ c ∈ s.pending, c.wf = true

/-- The host's write reaches function `f` only as a TLP: the link carries it, and error KIND 5 is logged (R456, R463). -/
def Unsupported (d : Dev) (f : Nat) : Dev := d.wakeLink.logError f 5 0 0

/-- The pins let a boot start (R487, R532 to R534, R540). -/
def PinsAllowBoot (p : Pins) : Prop :=
  p.leewardRail = true ∧ p.mainGood = true ∧ p.undervolt = false ∧ p.resetN = false ∧ p.perst = false

/-- `d'` is `d` with the main domain and the endpoint at their reset values (R486): functions, queues, charter, partitions,
jobs, cores, waymarks, depots, HBM, video, tracks and the audit unit. Flash, fuses and the leeward count survive. -/
def MainReset (d d' : Dev) : Prop :=
  d'.fns = Dev.reset.fns ∧ d'.queues = [] ∧ d'.due = [] ∧ d'.charter = CharterSt.reset ∧ d'.parts = Dev.reset.parts ∧
  d'.ctxs = [] ∧ d'.cores = Dev.reset.cores ∧ d'.wmk = [] ∧ d'.depots = [] ∧ d'.mem = Memory.reset ∧
  d'.video = Video.reset ∧ d'.trk = Trk.reset ∧ d'.dau = Dau.reset ∧ d'.link = Link.reset ∧ d'.resetRefused = false ∧
  d'.sec = { Sec.reset with slots := d.sec.slots, rollbackMin := d.sec.rollbackMin, fused := d.sec.fused,
                            flash := d.sec.flash } ∧
  d'.ticks = d.ticks

/-- The command register of function `f` is BUSY (R94, R121, R139, R379, R461). -/
def Busy (d : Dev) (f : Nat) (p : CmdPort) : Bool := ((d.fn f).cmd p).busyAt d.ticks

/-- A command written while its register is BUSY does nothing but set DROPPED. -/
def Dropped (d : Dev) (f : Nat) (p : CmdPort) : Dev :=
  (d.modFn f fun x => x.modCmd p fun c => { c with dropped := true }).fire (.dropped f p)

/-- A command its register takes, of effect `k`: BUSY then stays for a free time within `us` µs (log 45). -/
def Taken (d : Dev) (f : Nat) (p : CmdPort) (us : Nat) (k : Dev → Dev) : Dev :=
  (k { d with free := d.free + 1 }).busyFor f p us d.free

/-- The command register a row writes, and its function (R93, R120, R138, R379, R461). -/
def portOf : Instr → Option (Nat × CmdPort)
  | .streamOpen f _ _ => some (f, .stream)
  | .streamClose f _ _ => some (f, .stream)
  | .clearHeavy f _ _ => some (f, .stream)
  | .clipStart f _ _ _ => some (f, .clip)
  | .clipStop f _ _ _ => some (f, .clip)
  | .routeBind f _ _ => some (f, .route)
  | .routeUnbind f _ _ => some (f, .route)
  | .preempt f _ _ => some (f, .ctx)
  | .resume f _ _ => some (f, .ctx)
  | .cancel f _ _ => some (f, .ctx)
  | .ctxQuery f _ _ => some (f, .ctx)
  | .queueEnable f _ _ => some (f, .queue)
  | .queueDisable f _ _ => some (f, .queue)
  | .queueQuery f _ _ => some (f, .queue)
  | .queueReset f _ _ => some (f, .queue)
  | _ => none

/-- Function `f` exists and configuration requests are answered (R431, R433). -/
def ConfigReady (d : Dev) (f : Nat) : Prop :=
  (d.boot = .done ∨ d.boot = .recovery ∨ d.boot = .parked) ∧ (d.fn f).present = true

/-- The context runs in a partition of function `f`. -/
def OfFunction (d : Dev) (x : Ctx) (f : Nat) : Bool := (d.part? x.entry.part).any (·.owner == f)

/-- The function through whose BAR0 a row's register is written; none for rows that are no register write, or that answer
with data. -/
def writtenBy : Instr → Option Nat
  | .registerWrite f _ _ _ => some f
  | .streamOpen f _ _ => some f
  | .streamClose f _ _ => some f
  | .clearHeavy f _ _ => some f
  | .clipStart f _ _ _ => some f
  | .clipStop f _ _ _ => some f
  | .routeBind f _ _ => some f
  | .routeUnbind f _ _ => some f
  | .zoneSelect f _ => some f
  | .musterArm _ => some 0
  | .mismatchReport _ => some 0
  | .charterLoad _ => some 0
  | .charterDiscard _ => some 0
  | .charterSeal _ => some 0
  | .charterUnload _ => some 0
  | .preempt f _ _ => some f
  | .resume f _ _ => some f
  | .cancel f _ _ => some f
  | .ctxQuery f _ _ => some f
  | .partitionReset f _ => some f
  | .waymarkSignal f _ _ => some f
  | .doorbellWrite f _ _ _ => some f
  | .queueEnable f _ _ => some f
  | .queueDisable f _ _ => some f
  | .queueQuery f _ _ => some f
  | .queueReset f _ _ => some f
  | .tableBaseWrite f _ _ _ => some f
  | .bar2Write f _ _ _ => some f
  | .msixUnmask f _ => some f
  | .sleep _ => some 0
  | .wake _ => some 0
  | .noticeCommit _ => some 0
  | .filterWrite _ => some 0
  | .globalColdReset _ => some 0
  | .update _ _ => some 0
  | .recover _ _ => some 0
  | .selftest _ _ => some 0
  | .dump _ _ => some 0
  | .healthRingSet _ _ => some 0
  | _ => none

/-- A depot's buffers are its own: each of its `count` buffers is either free or held, and never twice (R383, R385). -/
def DepotWhole (x : Depot) : Prop := (x.free ++ x.held.map (·.1)).Perm (upTo x.count)

/-- The command of a tile row on core `c`. -/
def tileCommand (row : TileOp) (c : Nat) (ecc : Ecc) : Instr :=
  match row with
  | .nop => .nop c
  | .prefix_ => .scalePrefix c
  | .mxm => .mxm c ecc
  | .cnv => .cnv c ecc
  | .dwc => .dwc c ecc
  | .plx => .plx c ecc
  | .setlen => .setlen c
  | .cvt => .cvt c ecc
  | .arith => .vopArith c ecc
  | .function => .vopFunction c ecc
  | .compare => .vopCompare c ecc
  | .rqnt => .rqnt c ecc
  | .softmax => .softmax c ecc
  | .layernorm => .layernorm c ecc
  | .nms => .nms c ecc
  | .reduce => .vrdReduce c ecc
  | .topk => .topk c ecc
  | .ldt => .ldt c
  | .stt => .stt c ecc
  | .shl => .shl c ecc
  | .wms => .wms c
  | .wmw => .wmw c
  | .gate => .gate c
  | .cfaAdd => .cfaFetchAdd c
  | .cfaLoad => .cfaLoad c
  | .cfaInit => .cfaInit c
  | .dgp => .dgp c
  | .end_ => .tileEnd c

/-- The device when the schedule of core `c`'s job reaches ck `t`: the releases and waymark adds due by then are done (R40,
R268). -/
def Reached (d : Dev) (c t : Nat) : Dev := d.advance (((d.core c).job).getD 0) t

/-- Core `c`'s next step is the issue of word `w`, of row `row`, in schedule ck `t`, planned for ck `plan` (R246); `s` is the
core's seat when it issues. -/
structure Issuing (d : Dev) (row : TileOp) (c : Nat) (s : Seat) (w t plan : Nat) : Prop where
  core : c < 6
  due : dueTile row c d = true
  next : ∃ s0 cause vxe, d.seat c = some s0 ∧ d.nextOf s0 = .issue t plan cause vxe
  seat : (Reached d c t).seat c = some s
  word : (Reached d c t).tileAt s.p s.x s.slot s.k.run.ip = some w

/-- Nothing of the device outside the inference cores, the jobs, their partitions, the waymarks and memory is changed. -/
def OnlyJobs (d d' : Dev) : Prop :=
  d' = { d with cores := d'.cores, ctxs := d'.ctxs, parts := d'.parts, mem := d'.mem, wmk := d'.wmk }

/-- A core's queue is in order (R40): each release is at least its queue term after the one before, and the last one's is
kept. -/
def Ordered (r : CoreRun) : Prop := r.relinked r.queue = r

/-- A core is as it was but for the releases in its queue. -/
def OnlyReleases (k k' : Core) : Prop :=
  k' = { k with run := { k.run with queue := k'.run.queue, lastRelease := k'.run.lastRelease } }

/-- The pictures of a stream stand in decode order, under serials it has given out (R69). -/
def InDecodeOrder (x : Stream) : Prop :=
  x.pics.Pairwise (·.serial < ·.serial) ∧ ∀ p ∈ x.pics, p.serial < x.nextSerial

/-- Address `a` lies in none of the spans. -/
def Outside (spans : List (Nat × Nat)) (a : Nat) : Prop := ∀ q ∈ spans, a < q.1 ∨ q.2 ≤ a

end Sys2Proof
end

