-- ==== Sys2Proof/Certificates/Slice0/Obligations.lean ====
section
/-! DEFINITION. The statements for the provers. -/

open Sys2Proof Sys2Proof.Machine

/-! ### The block as a machine -/

/-- A step takes the command at the front of the queue and runs it with the queue's rest. -/
def Obligations.StepRunsTheFrontCommand : Prop :=
  ∀ (c : Instr) (s : State), step { s with pending := c :: s.pending } = exec c s

/-- On an empty queue a step is one root-PLL cycle (the model's choice, log 3): the video clock runs while the main domain
is clocked and has its reference, or an engine works (R464, R466), the core clock at its throttle level (R474), the leeward
count at 52 MHz within 1 % while its rail is up (R8, R465), and nothing else of the machine changes. -/
def Obligations.IdleStepPassesOneRootCycle : Prop :=
  (∀ d : Dev,
    let up := d.boot ≠ .held ∧ (d.lwd.st = .active ∨ d.lwd.st = .draining)
    step { pending := [], dev := d } = .next { pending := [], dev := { d with
      ticks := d.ticks + 1, fresh := []
      run := if up ∧ (d.clk.refPresent = true ∨ d.videoBusy = true) then d.run + 1 else d.run
      coreRun := if up ∧ d.clk.refPresent = true then d.coreRun + (64 - d.clk.level) else d.coreRun
      lwd := if d.pins.leewardRail then d.lwd.advance (leewardStep d.ticks) else d.lwd } }) ∧
  (∀ n, 990000 ≤ leewardStep n ∧ leewardStep n ≤ 1010000) ∧
  (∀ (l : Lwd) (n : Nat), l.lk < 52000 → l.phase < lkUnits →
    (((l.advance n).ms * 52000 + (l.advance n).lk) * lkUnits + (l.advance n).phase) % (2 ^ 64 * 52000 * lkUnits) =
      ((l.ms * 52000 + l.lk) * lkUnits + l.phase + n) % (2 ^ 64 * 52000 * lkUnits))

/-- No command touches the commands that wait behind it. -/
def Obligations.CommandsLeaveTheQueueAlone : Prop :=
  ∀ (c : Instr) (s t : State), exec c s = .next t → t.pending = s.pending

/-- No command stops the machine with a fault, from any state, whatever the device holds; and a queue of well-formed
commands stays one. -/
def Obligations.WellFormedCommandsNeverFault : Prop :=
  ∀ s : State, (∀ r, step s ≠ .fault r) ∧
    (QueueWf s → ∀ t, step s = .next t → QueueWf t ∧ t.pending = s.pending.tail)

/-- The queue is well formed after reset: it is empty. -/
def Claims.ResetQueueIsEmptyAndWellFormed : Prop := State.reset.pending = [] ∧ QueueWf State.reset

/-! ### Leeward domain, clocks, coolant -/

/-- SLEEP and WAKE (R467, R478, R482): the state they move the device to, the RESULT and TAG they report, and nothing else
but the link, which a TLP takes to L0. -/
def Obligations.SleepAndWakeMoveTheDevice : Prop :=
  ∀ (tag : Nat) (s : State), s.dev.serves 0 .lwd = true →
    let l := s.dev.lwd
    let ends := fun (l : Lwd) (res : Nat) =>
      Host.Outcome.next (s.withDev { s.dev.wakeLink with lwd := { l with result := res, tag := tag % 256 } })
    (l.st = .active → s.dev.boot = .done → exec (.sleep tag) s = ends { l with st := .draining } 0) ∧
    (l.st ≠ .active → exec (.sleep tag) s = ends l 2) ∧
    (l.tripped = true → exec (.wake tag) s = ends l 2) ∧
    (l.tripped = false → l.st = .draining → exec (.wake tag) s = ends { l with st := .active } 0) ∧
    (l.tripped = false → l.st = .leeward → exec (.wake tag) s = ends { l with st := .waking, cause := 1, wakeLk := l.lkNow } 0) ∧
    (l.tripped = false → l.st = .waking → exec (.wake tag) s =
      ends { l with cause := if l.cause = 2 ∧ l.wakeLk = l.lkNow then 1 else l.cause } 0) ∧
    (l.tripped = false → l.st = .active ∨ l.st = .off → exec (.wake tag) s = ends l 0)

/-- A notice counts as ignored outside Leeward and where no enabled filter watches its stream; in Leeward it counts, and
reaches nothing but the leeward domain (R470, R471, R483). -/
def Claims.NoticesReachOnlyTheLeewardDomain : Prop :=
  ∀ (ts : Reg) (s : State), s.dev.serves 0 .lwd = true →
    let l := s.dev.lwd
    let watched := l.filters.any fun f => f.enabled && f.stream == bits l.noticeLo 0 14
    (l.st ≠ .leeward ∨ watched = false → exec (.noticeCommit ts) s =
      .next (s.withDev { s.dev.wakeLink with lwd := { l with ignored := satAdd 64 l.ignored 1 } })) ∧
    (l.st = .leeward → watched = true → ∃ l' : Lwd, exec (.noticeCommit ts) s =
        .next (s.withDev { s.dev.wakeLink with lwd := l' }) ∧
      l'.notices = satAdd 64 l.notices 1 ∧ l'.ignored = l.ignored ∧ l'.ms = l.ms ∧ l'.wakeAt = l.wakeAt ∧
      (l'.st = .leeward ∨ (l'.st = .waking ∧ l'.cause = 2)))

/-- A notice of TYPE intra changes neither AVG nor the hit count; any other updates AVG by R471's formula, and the hits
restart where the trigger is not reached (R471). -/
def Claims.NoticesUpdateFilters : Prop :=
  ∀ (f : Filter) (n ts : Nat),
    (f.note true n ts).1 = { f with last := ts } ∧ (f.note true n ts).2 = false ∧
    (f.note false n ts).1.avg =
      wrapInt 32 ((f.avg : Int) + ((n * 256 : Nat) - (f.avg : Int)) / (2 ^ f.shift : Nat)) ∧
    ((f.note false n ts).1.avg < f.baseline * f.ratio * 16 →
      (f.note false n ts).1.hits = 0 ∧ (f.note false n ts).2 = false) ∧
    (f.baseline * f.ratio * 16 ≤ (f.note false n ts).1.avg →
      (f.note false n ts).1.baseline = f.baseline ∧ ((f.note false n ts).2 = true ↔ f.needed ≤ f.hits + 1))

/-- FILTER_WRITE sets the selected filter's AVG to BASELINE x 256 and its hit count to 0, leaves its bounds and every other
filter, and reaches nothing else (R471, R484). -/
def Claims.FilterWriteRestartsItsFilter : Prop :=
  ∀ (v : Reg) (s : State), s.dev.serves 0 .lwd = true → ∃ l' : Lwd,
    exec (.filterWrite v) s = .next (s.withDev { s.dev.wakeLink with lwd := l' }) ∧
    l' = { s.dev.lwd with filters := l'.filters } ∧
    (let f := s.dev.lwd.filter s.dev.lwd.filterSel
     let g := l'.filter s.dev.lwd.filterSel
     g.cfg = v.toNat &&& 0x00FFFFFFFFF77FFF ∧ g.baseline = bits v.toNat 32 24 ∧ g.avg = bits v.toNat 32 24 * 256 ∧
     g.hits = 0 ∧ g.bounds = f.bounds ∧ g.last = f.last) ∧
    ∀ i, i ≠ s.dev.lwd.filterSel → l'.filter i = s.dev.lwd.filter i

/-- The wake timer takes the device from Leeward to Waking (R467, R471); Waking ends in Active, or in Draining after a leak,
with WOKE set, the root PLL locked and the retraining counts restarted, the charter, streams, routes and contexts as they
were (R467, R472). -/
def Claims.WakingRunsFromTimerToActive : Prop :=
  ∀ s : State, s.dev.boot = .done → s.dev.lwd.tripped = false →
    let l := s.dev.lwd
    (l.st = .leeward → l.wakeAt ≠ 0 → l.wakeAt ≤ l.ms → l.wakeHeld = false →
      exec .wakeTimer s = .next (s.withDev { s.dev with lwd := { l with st := .waking, cause := 3, wakeLk := l.lkNow } })) ∧
    (l.st = .waking → Completes .wakeComplete s fun d =>
      d.lwd = { l with st := if l.drainAfterWake then .draining else .active, woke := true, drainAfterWake := false,
                       leakOwed := false } ∧
      d.clk = { s.dev.clk with pllLock := true } ∧
      d.parts = s.dev.parts.map (fun p => { p with retrain :=
        { p.retrain with lull := .none, lastTick := s.dev.ticks, pending := false } }) ∧
      d.charter = s.dev.charter ∧ d.video = s.dev.video ∧ d.queues = s.dev.queues ∧ d.ctxs = s.dev.ctxs ∧
      d.cores = s.dev.cores ∧ d.depots = s.dev.depots ∧ d.trk = s.dev.trk ∧ d.pins = s.dev.pins ∧ d.boot = .done)

/-- A throttle step (R473, R475): the level rises by 8 under protection, else moves by the power cap and the target
temperature within the throttle maximum; readings show in the CLK page and the stacks' registers, and no work changes. -/
def Claims.ThrottleStepSetsTheLevel : Prop :=
  ∀ (p : PowerFacts) (s : State), s.dev.mainUp = true →
    let c := s.dev.clk
    let pw : Bool := if c.powerProt then 1100 ≤ p.watts else 1150 < p.watts
    let th : Bool := 100 ≤ p.tjMax
    Completes (.throttleUpdate p) s fun d =>
      (pw || th → d.clk.level = min 64 (c.level + 8)) ∧
      (!(pw || th) → c.cap < p.watts ∨ c.target < p.tjMax →
        d.clk.level = min c.throttleMax (min c.level c.throttleMax + 4)) ∧
      (!(pw || th) → p.watts ≤ c.cap → p.tjMax ≤ c.target → d.clk.level ≤ min c.level c.throttleMax) ∧
      d.clk.powerProt = pw ∧ d.clk.thermalProt = th ∧ d.clk.vssStopped = decide (105 ≤ p.tjMax) ∧
      d.clk.policy = c.policy ∧ d.clk.refPresent = c.refPresent ∧ d.clk.pllLock = c.pllLock ∧
      d.mem.mcs = (List.zip (upTo 8) s.dev.mem.mcs).map (fun q =>
        { q.2 with temp := min 255 ((p.stackTemps[q.1]?).getD q.2.temp) }) ∧
      d.ctxs = s.dev.ctxs ∧ d.cores = s.dev.cores ∧ d.parts = s.dev.parts ∧
      d.video = s.dev.video ∧ d.queues = s.dev.queues ∧ d.charter = s.dev.charter ∧ d.lwd = s.dev.lwd

/-- A coolant sample writes the readings; the third leaking sample in a row reports the leak, and drains an Active device
under LEAK_ACTION 1 or 2 (R477). -/
def Claims.CoolantSamplesReportLeaks : Prop :=
  ∀ (f : CoolantFacts) (s : State), s.dev.pins.leewardRail = true → s.dev.lwd.st ≠ .off →
    let l := s.dev.lwd
    let run := if f.leak then l.leakRun + 1 else 0
    Completes (.coolantSample f) s fun d =>
      bits d.lwd.coolant 0 8 = min f.inlet 255 ∧ bits d.lwd.coolant 8 8 = min f.outlet 255 ∧
      bitAt d.lwd.coolant 28 = decide (3 ≤ run) ∧ d.lwd.leakRun = run ∧
      (run < 3 ∨ bitAt l.coolant 33 = true ∨ bits l.coolantPolicy 12 2 = 0 → d.lwd.st = l.st) ∧
      (3 ≤ run → bitAt l.coolant 33 = false → bits l.coolantPolicy 12 2 ≠ 0 → l.st = .active → d.lwd.st = .draining) ∧
      d.ctxs = s.dev.ctxs ∧ d.cores = s.dev.cores ∧ d.video = s.dev.video ∧ d.queues = s.dev.queues ∧
      d.charter = s.dev.charter ∧ d.clk = s.dev.clk

/-- A thermal trip gates the main domain at once (R478): Leeward with TRIPPED, THERMTRIP_N asserted, the cores' memories
and all work in flight gone; HBM's content, the charter and open streams stay. -/
def Claims.ThermalTripGatesTheMainDomain : Prop :=
  ∀ s : State, s.dev.boot = .done → s.dev.lwd.st ≠ .off → s.dev.lwd.tripped = false →
    Completes .thermalTrip s fun d =>
      d.lwd = { s.dev.lwd with st := .leeward, tripped := true, tripOwed := true, drainAfterWake := false } ∧
      d.pins = { s.dev.pins with thermtrip := true } ∧ d.bus = s.dev.bus ++ [.thermtrip true] ∧
      d.cores = s.dev.cores.map gateCore ∧ d.ctxs = [] ∧ d.due = [] ∧ d.video.passes = [] ∧ d.video.cropTasks = [] ∧
      d.video.clips = [] ∧ (∀ e ∈ d.video.vdec, e.job = none) ∧ (∀ e ∈ d.video.venc, e.job = none) ∧
      d.mem.hbm = s.dev.mem.hbm ∧ d.charter = s.dev.charter ∧ d.video.streams = s.dev.video.streams ∧
      d.video.routes = s.dev.video.routes ∧ d.queues = s.dev.queues

/-- Losing the reference sets REF_LOST and stops the clocks; its return restarts them (R466). Jobs, cores and memory keep
their state. A boot that loses it waits (R548). -/
def Claims.ReferenceLossStopsTheClocks : Prop :=
  (∀ s : State, s.dev.boot = .done → s.dev.lwd.st = .active → s.dev.clk.refPresent = true →
    Completes .refLost s fun d =>
      d.clk = { s.dev.clk with refLostFlag := true, refPresent := false, pllLock := false } ∧ d.lwd = s.dev.lwd ∧
      d.ctxs = s.dev.ctxs ∧ d.cores = s.dev.cores ∧ d.parts = s.dev.parts ∧ d.video = s.dev.video) ∧
  (∀ s : State, s.dev.clk.refPresent = false → exec .refReturn s =
    .next (s.withDev { s.dev with clk := { s.dev.clk with refPresent := true, pllLock := s.dev.mainUp } })) ∧
  (∀ (s : State) (cold : Bool) (cause : Nat), s.dev.boot = .booting cold cause → s.dev.clk.refPresent = true →
    exec .refLost s = .next (s.withDev { s.dev with clk := { s.dev.clk with refPresent := false, pllLock := false } }))

/-- Leeward begins when nothing is in progress (R468): open clips end, the cores' memories are lost, the health store is
written (R500), contexts and the charter stay; where no clip is open and no record is owed, streams, routes, queues, depots
and HBM stay as they are too. -/
def Claims.DrainEntersLeeward : Prop :=
  ∀ s : State, s.dev.boot = .done → s.dev.lwd.st = .draining → s.dev.drained = true →
    Completes .drainComplete s fun d =>
      d.lwd = { s.dev.lwd with st := .leeward } ∧ d.clk.pllLock = false ∧ d.cores = s.dev.cores.map gateCore ∧
      d.ctxs = s.dev.ctxs ∧ d.charter = s.dev.charter ∧ d.pins = s.dev.pins ∧
      (s.dev.sec.down.contains 2 = false →
        d.sec.storeSeq = (s.dev.sec.storeSeq + 1) % 2 ^ 32 ∧ d.sec.storeBank = 1 - s.dev.sec.storeBank ∧
        d.sec.dirty = false) ∧
      (s.dev.video.clips = [] → s.dev.due = [] → d.video.streams = s.dev.video.streams ∧ d.video.routes = s.dev.video.routes ∧
        d.queues = s.dev.queues ∧ d.mem = s.dev.mem ∧ d.depots = s.dev.depots ∧ d.parts = s.dev.parts)

/-! ### Pins, resets, boot -/

/-- Asserting RESET_N or PERST#, a valid write of GLB_RESET, and PWRGOOD_MAIN rising take the main domain and the endpoint
to their reset values; the leeward count survives them all (R486, R523). A cold reset clears TRIPPED and the filters and
releases THERMTRIP_N; PERST# leaves TRIPPED (R478, R540). The boot waits while a pin holds it (R487). -/
def Claims.ResetsReturnTheMainDomain : Prop :=
  (∀ s : State, s.dev.pins.resetN = false → s.dev.pins.leewardRail = true →
    Completes .resetNAssert s fun d => MainReset s.dev d ∧ d.boot = .held ∧ d.run = 0 ∧ d.lwd.ms = s.dev.lwd.ms ∧
      d.lwd.tripped = false ∧ d.lwd.filters = [] ∧
      d.pins = { s.dev.pins with resetN := true, coldPending := true, pendingCause := 1, thermtrip := false }) ∧
  (∀ s : State, s.dev.pins.resetN = false → s.dev.pins.leewardRail = false → exec .resetNAssert s =
    .next (s.withDev { s.dev with pins := { s.dev.pins with resetN := true } })) ∧
  (∀ s : State, s.dev.pins.perst = false →
    Completes .perstAssert s fun d => MainReset s.dev d ∧ d.boot = .held ∧ d.lwd.ms = s.dev.lwd.ms ∧
      d.lwd.tripped = s.dev.lwd.tripped ∧ d.lwd.filters = [] ∧ d.pins.perst = true ∧ d.run = s.dev.run ∧
      d.pins.thermtrip = s.dev.pins.thermtrip ∧ d.bus = s.dev.bus) ∧
  (∀ s : State, s.dev.serves 0 .glb = true → PinsAllowBoot s.dev.pins →
    Completes (.globalColdReset 0x434F4C4400000001#64) s fun d => MainReset s.dev d ∧ d.boot = .booting true 2 ∧
      d.run = 0 ∧ d.lwd.ms = s.dev.lwd.ms ∧ d.lwd.tripped = false ∧ d.lwd.filters = [] ∧ d.pins.thermtrip = false) ∧
  (∀ (v : Reg) (s : State), s.dev.serves 0 .glb = true → v ≠ 0x434F4C4400000001#64 → exec (.globalColdReset v) s =
    .next (s.withDev (({ s.dev.wakeLink with resetRefused := true } : Dev).fire .resetRefused))) ∧
  (∀ s : State, s.dev.pins.mainGood = false → s.dev.pins.leewardRail = true →
    Completes .pwrgoodMainAssert s fun d => MainReset s.dev d ∧ d.run = 0 ∧ d.lwd.ms = s.dev.lwd.ms ∧ d.lwd.tripped = false ∧
      d.pins.mainGood = true ∧ d.pins.undervolt = false ∧
      d.boot = (if s.dev.pins.resetN || s.dev.pins.perst then .held else .booting true 0))

/-- Power going away holds the main domain in reset (R533, R534); a leeward rail that falls or is too low clears the leeward
controller and its count (R465, R467, R534). The verdict responder answers again within 5 ms of the rail's return (R488). -/
def Claims.PowerLossHoldsTheMainDomain : Prop :=
  (∀ s : State, s.dev.pins.mainGood = true →
    Completes .pwrgoodMainDeassert s fun d => MainReset s.dev d ∧ d.boot = .held ∧ d.lwd.ms = s.dev.lwd.ms ∧
      d.pins = { s.dev.pins with mainGood := false, undervolt := false, coldPending := true, pendingCause := 0 }) ∧
  (∀ s : State, s.dev.pins.mainGood = true → s.dev.pins.undervolt = false →
    Completes (.railUndervoltage false) s fun d => MainReset s.dev d ∧ d.boot = .held ∧ d.lwd.ms = s.dev.lwd.ms ∧
      d.pins = { s.dev.pins with undervolt := true, coldPending := true, pendingCause := 0 }) ∧
  (∀ s : State, s.dev.pins.leewardRail = true → exec (.railUndervoltage true) s =
    .next (s.withDev { s.dev with lwd := { Lwd.reset with st := s.dev.lwd.st } })) ∧
  (∀ s : State, s.dev.pins.leewardRail = true →
    Completes .leewardRailDown s fun d => MainReset s.dev d ∧ d.boot = .held ∧ d.lwd = { Lwd.reset with st := .off } ∧
      d.vpt = Vpt.reset ∧ d.pins.leewardRail = false) ∧
  (∀ s : State, s.dev.pins.leewardRail = false → s.dev.pins.resetN = true → Completes .leewardRailUp s fun d =>
    MainReset s.dev d ∧ d.boot = .held ∧ d.pins.leewardRail = true ∧ d.pins.pendingCause = 1) ∧
  (∀ s : State, s.dev.pins.leewardRail = false → s.dev.pins.resetN = false → Completes .leewardRailUp s fun d =>
    s.dev.ticks ≤ d.vpt.ready ∧ d.vpt.ready ≤ s.dev.ticks + 5 * msTicks ∧
    d = { s.dev with pins := { s.dev.pins with leewardRail := true }, lwd := { Lwd.reset with st := .off }
                     free := s.dev.free + 1, vpt := { s.dev.vpt with ready := d.vpt.ready } })

/-- Releasing RESET_N or PERST# starts the boot that waits, cold where a cold reset is pending, unless another pin holds it
(R487, R540). Nothing else changes. -/
def Claims.ReleasedPinsStartTheBoot : Prop :=
  ∀ s : State,
    let p := s.dev.pins
    let starts := fun (p : Pins) => Host.Outcome.next (s.withDev
      { s.dev with boot := .booting p.coldPending p.pendingCause, pins := { p with coldPending := false } })
    (p.resetN = true → s.dev.boot = .held → PinsAllowBoot { p with resetN := false } →
      exec .resetNDeassert s = starts { p with resetN := false }) ∧
    (p.resetN = true → (s.dev.boot ≠ .held ∨ ¬PinsAllowBoot { p with resetN := false }) →
      exec .resetNDeassert s = .next (s.withDev { s.dev with pins := { p with resetN := false } })) ∧
    (p.perst = true → s.dev.boot = .held → PinsAllowBoot { p with perst := false } →
      exec .perstDeassert s = starts { p with perst := false }) ∧
    (p.perst = true → (s.dev.boot ≠ .held ∨ ¬PinsAllowBoot { p with perst := false }) →
      exec .perstDeassert s = .next (s.withDev { s.dev with pins := { p with perst := false } }))

/-- How a boot ends (R467, R487, R492, R494): TRIPPED stops a PERST# boot in Leeward; the bank the ROM chooses runs and the
device is Active, its cores' memories clear; where no bank passes, recovery mode. -/
def Claims.BootEndsInActiveRecoveryOrPark : Prop :=
  ∀ (s : State) (cold : Bool) (cause : Nat), s.dev.boot = .booting cold cause → s.dev.clk.refPresent = true →
    let l := { s.dev.lwd with boots := satAdd 32 s.dev.lwd.boots 1, bootCause := cause }
    (s.dev.lwd.tripped = true → cold = false → exec .bootComplete s =
      .next (s.withDev { s.dev with boot := .parked, lwd := { l with st := .leeward } })) ∧
    (s.dev.lwd.tripped = false ∨ cold = true → s.dev.sec.choose = none → exec .bootComplete s =
      .next (s.withDev { s.dev with
        boot := .recovery, sec := { s.dev.sec with recovery := true }, clk := { s.dev.clk with pllLock := true }
        lwd := { l with st := .active } })) ∧
    (∀ b fb, s.dev.lwd.tripped = false ∨ cold = true → s.dev.sec.choose = some (b, fb) →
      Completes .bootComplete s fun d => d.boot = .done ∧ d.lwd = { l with st := .active, tripOwed := false, leakOwed := false } ∧
        d.sec.running.map (·.bank) = some b ∧ d.sec.fallback = fb ∧ d.clk = { s.dev.clk with pllLock := true } ∧
        (∀ c ∈ d.cores, c.mem = CoreMem.zero) ∧ d.sec.flash = s.dev.sec.flash ∧ d.pins = s.dev.pins)

/-! ### Firmware commands, stewards, health -/

/-- SEC_CMD's commands when no other is in progress (R494, R498, R506, R510): what each refuses at once, and the command
that then runs. -/
def Claims.SecurityCommandsStart : Prop :=
  ∀ (tag : Nat) (s : State), s.dev.serves 0 .sec = true → s.dev.sec.cmd = none →
    let d0 := s.dev.wakeLink
    let ends := fun (res : Nat) =>
      Host.Outcome.next (s.withDev { d0 with sec :=
        { s.dev.sec with result := res, tag := tag % 256, check := 0, detail := 0 } })
    let runs := fun (sec : Sec) (op res check : Nat) (img : List Byte) => 
      let c : SecCmd := { op := op, tag := tag % 256, image := img, result := res, check := check, detail := 0 }
      Host.Outcome.next (s.withDev { d0 with sec := { sec with cmd := some c } })
    (∀ image, s.dev.boot = .recovery → exec (.update tag image) s = ends 4) ∧
    (∀ image, s.dev.boot ≠ .recovery → exec (.recover tag image) s = ends 4) ∧
    (∀ image, s.dev.boot ≠ .recovery → s.dev.sec.imageSpan = false → exec (.update tag image) s = ends 1) ∧
    (s.dev.boot ≠ .recovery → s.dev.sec.imageSpan = true → exec (.update tag none) s = runs s.dev.sec 1 5 0 []) ∧
    (s.dev.boot = .recovery → s.dev.sec.imageSpan = true → exec (.recover tag none) s = runs s.dev.sec 2 5 0 []) ∧
    (∀ bs, s.dev.boot = .recovery → s.dev.sec.imageSpan = true →
      let img := fit s.dev.sec.len bs
      s.dev.sec.imageCheck img false = 0 →
        exec (.recover tag (some bs)) s = runs (s.dev.sec.program 0 (img.take 0x1000)) 2 0 0 img) ∧
    (∀ bs, s.dev.boot ≠ .recovery → s.dev.sec.imageSpan = true →
      let img := fit s.dev.sec.len bs
      let c := s.dev.sec.imageCheck img true
      (c ≠ 0 → exec (.update tag (some bs)) s = runs s.dev.sec 1 (if c = 5 ∨ c = 7 then 3 else 2) c []) ∧
      (c = 0 → exec (.update tag (some bs)) s =
        runs (s.dev.sec.program (1 - ((s.dev.sec.running.map (·.bank)).getD 1)) (img.take 0x1000)) 1 0 0 img)) ∧
    (∀ bad, s.dev.boot ≠ .recovery → s.dev.charter.st ≠ .empty → exec (.selftest tag bad) s = ends 4) ∧
    (∀ bad, s.dev.boot ≠ .recovery → s.dev.charter.st = .empty → s.dev.sec.addr % 4096 = 0 →
      Completes (.selftest tag bad) s fun d => d.sec.cmd = some
        { op := 3, tag := tag % 256, image := [], result := 0, check := 0, detail := bad.length } ∧
        d.charter = s.dev.charter ∧ d.sec.flash = s.dev.sec.flash ∧ d.video = s.dev.video ∧ d.ctxs = s.dev.ctxs) ∧
    (∀ st, s.dev.sec.addr % 4096 = 0 → Completes (.dump tag st) s fun d =>
      let bs := (st ++ s.dev.sec.recent.flatMap id).take s.dev.sec.len
      let c : SecCmd := { op := 4, tag := tag % 256, image := [], result := 0, check := 0, detail := bs.length }
      d.sec = { s.dev.sec with cmd := some c } ∧
      d.bus = s.dev.bus ++ [.write 0 s.dev.sec.addr bs])

/-- While a command of SEC_CMD is in progress another sets DROPPED and does nothing, but an UPDATE during SELFTEST or DUMP
ends with STATE (R507, R510). -/
def Claims.BusySecurityCommandsAreDropped : Prop :=
  ∀ (tag : Nat) (s : State) (c : SecCmd), s.dev.serves 0 .sec = true → s.dev.sec.cmd = some c →
    let drop := Host.Outcome.next (s.withDev
      (({ s.dev.wakeLink with sec := { s.dev.sec with dropped := true } } : Dev).fire .secDropped))
    (∀ image, c.op ≠ 3 → c.op ≠ 4 → exec (.update tag image) s = drop) ∧
    (∀ image, c.op = 3 ∨ c.op = 4 → exec (.update tag image) s = .next (s.withDev { s.dev.wakeLink with sec :=
      { s.dev.sec with result := 4, tag := tag % 256, check := 0, detail := 0 } })) ∧
    (∀ image, exec (.recover tag image) s = drop) ∧
    (∀ bad, exec (.selftest tag bad) s = drop) ∧ (∀ st, exec (.dump tag st) s = drop)

/-- The end of a command of SEC_CMD (R494, R498, R510): its result and tag are reported; a failed one changes nothing else,
an UPDATE has programmed the other bank, a RECOVER runs its image from bank A. -/
def Claims.SecurityCommandsEnd : Prop :=
  ∀ (s : State) (c : SecCmd), s.dev.sec.cmd = some c → s.dev.sec.down.contains 2 = false →
    let sec := { s.dev.sec with cmd := none, result := c.result, tag := c.tag, check := c.check, detail := c.detail }
    (c.result ≠ 0 ∨ (c.op ≠ 1 ∧ c.op ≠ 2) →
      exec .secCommandDone s = .next (s.withDev { s.dev with sec := sec })) ∧
    (c.result = 0 → c.op = 1 →
      let other := 1 - ((s.dev.sec.running.map (·.bank)).getD 1)
      exec .secCommandDone s = .next (s.withDev { s.dev with sec := sec.program other c.image })) ∧
    (c.result = 0 → c.op = 2 → Completes .secCommandDone s fun d => d.boot = .done ∧ d.sec.recovery = false ∧
      (d.sec.running.map fun r => (r.bank, r.host)) = some (0, true) ∧ d.lwd.st = .active ∧
      d.sec.flash = (sec.program 0 c.image).flash)

/-- A write of the health store goes to the other bank under the next sequence number, and that bank passes its check
afterwards (R499, R500). Where the fields lie in the bank is the model's choice (log 13). -/
def Obligations.HealthStoreWritesTheOtherBank : Prop :=
  ∀ s : State, s.dev.mainUp = true → s.dev.sec.down.contains 2 = false → s.dev.sec.storeBank < 2 →
    memWf s.dev.sec.flash = true → 184 + 8 * s.dev.mem.repairs.length ≤ 61440 →
    Completes .healthStoreWrite s fun d =>
      d.sec.storeBank = 1 - s.dev.sec.storeBank ∧ d.sec.storeSeq = (s.dev.sec.storeSeq + 1) % 2 ^ 32 ∧
      d.sec.dirty = false ∧
      ((d.sec.storeBankOk d.sec.storeBank).map (·.1)) = some d.sec.storeSeq ∧
      d = { s.dev with sec := { s.dev.sec with
        flash := d.sec.flash, storeBank := d.sec.storeBank, storeSeq := d.sec.storeSeq, dirty := false } }

/-- STEWARD_WATCHDOG and STEWARD_RESTART_DONE (R505, R507): a steward that hangs restarts and is counted, and an UPDATE that
ST2 was running will report FLASH_ERROR; it runs again, and no other steward changes; ST2 then answers what has waited for
it. HEALTH_RING_SET (R501, R511): BASE and LOG2 take what the write reaches; a ring inside the PF's grant takes the records
kept back. SPDM_REQUEST (R504): running firmware answers on the PF's mailbox, a request waits while ST2 restarts, and it
stays without an answer where the main domain is down (the model's choice, log 14); the answer's bytes are the model's
choice (log 14). None of them changes the work of the device. -/
def Obligations.StewardsAndHealthRing : Prop :=
  let works := fun (a b : Dev) => b.ctxs = a.ctxs ∧ b.cores = a.cores ∧ b.video = a.video ∧ b.charter = a.charter ∧
    b.queues = a.queues ∧ b.parts = a.parts
  (∀ (n : Nat) (s : State), n < 3 → s.dev.mainUp = true → s.dev.sec.down.contains n = false →
    ∃ d : Dev, exec (.stewardWatchdog n) s = .next (s.withDev d) ∧ works s.dev d ∧
      d.sec.down = s.dev.sec.down ++ [n] ∧ d.sec.restarts = satAdd 64 s.dev.sec.restarts 1 ∧
      d.sec.cmd = s.dev.sec.cmd.map (fun c => if n = 2 ∧ c.op = 1 then { c with result := 6 } else c) ∧
      d.sec.flash = s.dev.sec.flash) ∧
  (∀ (n : Nat) (s : State), s.dev.sec.down.contains n = true → n ≠ 2 → exec (.stewardRestartDone n) s =
    .next (s.withDev { s.dev with sec := { s.dev.sec with down := s.dev.sec.down.filter (· != n) } })) ∧
  (∀ s : State, s.dev.sec.down.contains 2 = true → ∃ d : Dev, exec (.stewardRestartDone 2) s = .next (s.withDev d) ∧
    d.sec = { s.dev.sec with down := s.dev.sec.down.filter (· != 2), spdmWaits := [] } ∧
    d.bus = s.dev.bus ++ s.dev.sec.spdmWaits.map (fun q => .doe (s.dev.spdmAnswer q.1 q.2)) ∧
    d = { s.dev with sec := d.sec, bus := d.bus, link := d.link }) ∧
  (∀ (h : Half) (v : Reg) (s : State), s.dev.serves 0 .sec = true →
    ∃ d : Dev, exec (.healthRingSet h v) s = .next (s.withDev d) ∧ works s.dev d ∧
      d.sec.ring = rwWrite h 0x001FFFFFFFFFFC00 s.dev.sec.ring v.toNat ∧ d.sec.kept.length ≤ s.dev.sec.kept.length ∧
      (ringBase d.sec.ring = 0 → d = { s.dev.wakeLink with sec := { s.dev.sec with ring := d.sec.ring } })) ∧
  (∀ q nonce (s : State), s.dev.mainUp = true → s.dev.sec.down.contains 2 = false →
    exec (.spdmRequest q nonce) s = .next (s.withDev { s.dev with
      bus := s.dev.bus ++ [.doe (s.dev.spdmAnswer q nonce)], link := s.dev.link.leaveL1 })) ∧
  (∀ q nonce (s : State), s.dev.mainUp = true → s.dev.sec.down.contains 2 = true →
    exec (.spdmRequest q nonce) s = .next (s.withDev { s.dev with
      sec := { s.dev.sec with spdmWaits := s.dev.sec.spdmWaits ++ [(q, nonce)] } })) ∧
  (∀ q nonce (s : State), s.dev.mainUp = false → exec (.spdmRequest q nonce) s = .next (s.withDev s.dev))

/-! ### Link, functions, verdict lane -/

/-- A link that trains reports its rate, and DEGRADED below 16 GT/s or x8 (R431, R459); link power states change the link
alone (R455); a link that goes down, and a Hot Reset, are an FLR of the PF that takes every VF (R434). -/
def Obligations.LinkTrainsNarrowsAndFalls : Prop :=
  (∀ (speed width : Nat) (flit : Bool) (s : State), 1 ≤ speed → speed ≤ 6 → 1 ≤ width → width ≤ 16 →
    (speed = 6 → flit = true) → s.dev.boot ≠ .held → s.dev.pins.perst = false → s.dev.link.ltssm = 0 →
    Completes (.pcieLinkUp speed width flit) s fun d =>
      d.link = { s.dev.link with speed := speed, width := width, l0pLanes := width, flit := flit,
                                 degraded := decide (speed < 4) || decide (width < 8), ltssm := 2 } ∧
      d.charter = s.dev.charter ∧ d.ctxs = s.dev.ctxs ∧ d.queues = s.dev.queues ∧ d.lwd = s.dev.lwd ∧
      (4 ≤ speed → 8 ≤ width → d = { s.dev with link := d.link })) ∧
  (∀ s : State, s.dev.link.ltssm = 2 ∨ s.dev.link.ltssm = 3 → s.dev.linkIdle = true → exec .l1Entry s =
    .next (s.withDev { s.dev with bus := s.dev.bus ++ [.requestL1], link := { s.dev.link with ltssm := 4 } })) ∧
  (∀ s : State, s.dev.link.ltssm = 2 → bitAt s.dev.link.powerCtl 16 = true → s.dev.link.narrow < s.dev.link.l0pLanes →
    exec .l0pNarrow s = .next (s.withDev { s.dev with link :=
      { s.dev.link with l0pLanes := s.dev.link.narrow, ltssm := 3 } })) ∧
  (∀ s : State, s.dev.link.ltssm ≠ 0 → Completes .linkDown s fun d =>
    d.link.speed = 0 ∧ d.link.width = 0 ∧ d.link.ltssm = 0 ∧ (d.fn 0).mse = false ∧ (d.fn 0).bme = false ∧
    (∀ f, 1 ≤ f → f < 7 → (d.fn f).present = false) ∧ d.charter = s.dev.charter) ∧
  (∀ s : State, s.dev.link.ltssm ≠ 0 → Completes .hotReset s fun d =>
    (d.fn 0).mse = false ∧ (d.fn 0).bme = false ∧ (∀ f, 1 ≤ f → f < 7 → (d.fn f).present = false) ∧
    d.charter = s.dev.charter)

/-- An FLR (R375, R434, R549): the function's enables read 0, its vectors are masked with nothing pending, its registers are
at their reset values but GLB_SCRATCH; nothing of it stays in streams, routes, clips, records due or contexts, and its
queues are disabled. The charter stays sealed; another function keeps its enables and its scratch register. -/
def Obligations.FunctionLevelResetClearsItsFunction : Prop :=
  ∀ (f : Nat) (s : State), f < 7 → ConfigReady s.dev f → Completes (.flr f) s fun d =>
    (d.fn f).mse = false ∧ (d.fn f).bme = false ∧ (d.fn f).d3 = false ∧ (d.fn f).msix = [] ∧ (d.fn f).pba = [] ∧
    (d.fn f).qdBase = 0 ∧ (d.fn f).errLog = [] ∧ (d.fn f).overflow = [] ∧ (d.fn f).stopped = [] ∧
    (d.fn f).scratch = (s.dev.fn f).scratch ∧
    (∀ q ∈ d.queues, q.fn = f → q.st = .disabled) ∧ (∀ x ∈ d.video.streams, x.fn ≠ f) ∧
    (∀ x ∈ d.video.routes, x.fn ≠ f) ∧ (∀ x ∈ d.video.clips, x.fn ≠ f) ∧ (∀ x ∈ d.due, x.fn ≠ f) ∧
    (∀ x ∈ d.ctxs, OfFunction s.dev x f = false) ∧ d.charter = s.dev.charter ∧ d.lwd = s.dev.lwd ∧ d.pins = s.dev.pins ∧
    (f ≠ 0 → ∀ g, g ≠ f → (d.fn g).mse = (s.dev.fn g).mse ∧ (d.fn g).bme = (s.dev.fn g).bme ∧
      (d.fn g).scratch = (s.dev.fn g).scratch ∧ (d.fn g).present = (s.dev.fn g).present)

/-- VF Enable brings the VFs NumVFs names into being, and clearing it resets and removes every VF (R433, R434). -/
def Claims.VfEnableGovernsTheVirtualFunctions : Prop :=
  (∀ (n : Nat) (s : State), n ≤ 6 → ConfigReady s.dev 0 → s.dev.vfs = [] → s.dev.fns.length = 7 →
    Completes (.vfEnableSet n) s fun d =>
      (∀ f, 1 ≤ f → f ≤ n → d.fn f = { s.dev.fn f with present := true }) ∧
      (∀ f, f = 0 ∨ n < f → d.fn f = s.dev.fn f) ∧ d = { s.dev.wakeLink with fns := d.fns }) ∧
  (∀ (n : Nat) (s : State), n ≤ 6 → ConfigReady s.dev 0 → s.dev.vfs ≠ [] →
    exec (.vfEnableSet n) s = .next (s.withDev s.dev.wakeLink)) ∧
  (∀ s : State, ConfigReady s.dev 0 → Completes .vfEnableClear s fun d =>
    (∀ f, 1 ≤ f → f < 7 → (d.fn f).present = false) ∧ d.charter = s.dev.charter ∧ d.lwd = s.dev.lwd)

/-- The enables of a function and its power state (R374, R435, R456): where it has no context to stop or resume and no
record is held back, the write changes its bit, sends the interrupts that waited for it, and nothing else. -/
def Claims.FunctionEnablesAreWritten : Prop :=
  ∀ (f : Nat) (s : State), f < 7 → ConfigReady s.dev f →
    let d := s.dev.wakeLink
    (∀ on, exec (.memorySpaceEnableWrite f on) s = .next (s.withDev (d.modFn f fun x => { x with mse := on }))) ∧
    ((∀ x ∈ s.dev.ctxs, OfFunction s.dev x f = false) →
      exec (.bmeClear f) s = .next (s.withDev (d.modFn f fun x => { x with bme := false })) ∧
      exec (.d3hotEntry f) s = .next (s.withDev (d.modFn f fun x => { x with d3 := true }))) ∧
    ((s.dev.fn f).stopped = [] → (s.dev.fn f).overflow = [] → (∀ c ∈ s.dev.video.clips, c.fn ≠ f) → f < s.dev.fns.length →
      ((s.dev.fn f).d3 = false → exec (.bmeSet f) s =
        .next (s.withDev ((d.modFn f fun x => { x with bme := true }).flushPending f))) ∧
      ((s.dev.fn f).d3 = true → exec (.bmeSet f) s = .next (s.withDev (d.modFn f fun x => { x with bme := true }))) ∧
      ((s.dev.fn f).bme = true → exec (.d3hotExit f) s =
        .next (s.withDev ((d.modFn f fun x => { x with d3 := false }).flushPending f))) ∧
      ((s.dev.fn f).bme = false → exec (.d3hotExit f) s = .next (s.withDev (d.modFn f fun x => { x with d3 := false }))))

/-- An invalidation removes the page's entries from the translation cache and is completed (R454). -/
def Claims.InvalidationsRemoveTranslations : Prop :=
  ∀ (f tag page : Nat) (s : State), f < 7 → ConfigReady s.dev f → Completes (.atsInvalidate f tag page) s fun d =>
    (f, page) ∉ d.link.ats ∧ (∀ e ∈ s.dev.link.ats, e ≠ (f, page) → e ∈ d.link.ats) ∧
    d.bus = s.dev.bus ++ [.invalidated f tag] ∧ d = { s.dev with bus := d.bus, link := d.link }

/-- The verdict port's lane: LINK_UP follows the link where a module is present, and a missing module clears it (R319, R535,
R537). -/
def Claims.VerdictLaneFollowsItsModule : Prop :=
  (∀ (fec : Bool) (s : State), s.dev.pins.leewardRail = true → s.dev.pins.ethModAbs = false →
    s.dev.vpt.linkUp = false → exec (.verdictLinkUp fec) s =
      .next (s.withDev { s.dev with vpt := { s.dev.vpt with linkUp := true, fecDegraded := fec } })) ∧
  (∀ s : State, s.dev.vpt.linkUp = true → exec .verdictLinkDown s =
    .next (s.withDev { s.dev with vpt := { s.dev.vpt with linkUp := false, fecDegraded := false } })) ∧
  (∀ s : State, s.dev.pins.ethModAbs = true → exec (.ethModAbsChange false) s =
    .next (s.withDev { s.dev with pins := { s.dev.pins with ethModAbs := false } })) ∧
  (∀ s : State, s.dev.pins.ethModAbs = false → exec (.ethModAbsChange true) s =
    .next (s.withDev { s.dev with pins := { s.dev.pins with ethModAbs := true }
                                  vpt := { s.dev.vpt with linkUp := false, fecDegraded := false } }))

/-! ### Register accesses -/

/-- Every register write of every function, and every BAR2 write, is an Unsupported Request while Memory Space Enable is
clear or the function is in D3hot: it is logged with KIND 5, and has no other effect (R437, R456, R463). -/
def Obligations.ClosedFunctionsOnlyLogAccesses : Prop :=
  ∀ (c : Instr) (f : Nat) (s : State), c.wf = true → writtenBy c = some f → (s.dev.fn f).present = true →
    (s.dev.fn f).mse = false ∨ (s.dev.fn f).d3 = true → exec c s = .next (s.withDev (Unsupported s.dev f))

/-- A write of an RW register by its whole or by a half (R11): the bits the write reaches take the value written under the
register's mask, the others keep theirs. -/
def Claims.HalfWritesKeepTheOtherHalf : Prop :=
  ∀ mask old v : Nat, mask < 2 ^ 64 → old < 2 ^ 64 → v < 2 ^ 64 →
    rwWrite .full mask old v = v &&& mask ∧
    rwWrite .low mask old v % 2 ^ 32 = (v &&& mask) % 2 ^ 32 ∧
    rwWrite .low mask old v / 2 ^ 32 = (old &&& mask) / 2 ^ 32 ∧
    rwWrite .high mask old v / 2 ^ 32 = ((v % 2 ^ 32) &&& (mask / 2 ^ 32)) ∧
    rwWrite .high mask old v % 2 ^ 32 = (old &&& mask) % 2 ^ 32

/-- REGISTER_WRITE at an offset the device serves (R10, R11, R377, R437, R524): a misaligned write is dropped and logged, an
offset without a register is not affected, GLB_SCRATCH holds the value written for its function alone, and a ring register
of a partition is written only while the partition has no context. -/
def Claims.RegisterWritesActByTheirRegister : Prop :=
  ∀ (f o : Nat) (h : Half) (v : Reg) (s : State), f < 7 → o < bar0Size f →
    let d := s.dev.wakeLink
    (o % 8 ≠ 0 → s.dev.serves f .glb = true →
      exec (.registerWrite f o h v) s = .next (s.withDev (d.logError f 5 0 0))) ∧
    (o % 8 = 0 → s.dev.serves f (pageAt f o) = true → s.dev.regAt f o = none →
      exec (.registerWrite f o h v) s = .next (s.withDev d)) ∧
    (o % 8 = 0 → s.dev.serves f (pageAt f o) = true → s.dev.regAt f o = some .glbScratch →
      exec (.registerWrite f o h v) s =
        .next (s.withDev (d.modFn f fun x => { x with scratch := rwWrite h (2 ^ 64 - 1) x.scratch v.toNat }))) ∧
    (∀ p, o % 8 = 0 → s.dev.serves f (pageAt f o) = true → s.dev.regAt f o = some (.dspFaultRing p) →
      ((∃ x ∈ s.dev.ctxs, x.entry.part = p) → exec (.registerWrite f o h v) s = .next (s.withDev d)) ∧
      ((∀ x ∈ s.dev.ctxs, x.entry.part ≠ p) → exec (.registerWrite f o h v) s =
        .next (s.withDev (d.modPart p fun x =>
          { x with faultRing := rwWrite h (2 ^ 53 - 2 ^ 10) x.faultRing v.toNat, faultWrites := 0 }))))

/-- What a read returns (R1, R10 to R12, R519, R524): the identification values of GLB_ID and of configuration space, 0 at
the reserved offsets around the pages, the two halves of a register's word, the value written of GLB_SCRATCH, and 0 from a
page that is not served. -/
def Claims.RegistersReadAsTheMapSays : Prop :=
  (∀ (d : Dev) (f : Nat), d.readWord f 0 % 2 ^ 16 = 0x1FB8 ∧
    d.readWord f 0 / 2 ^ 16 % 2 ^ 16 = (if f = 0 then 0x6800 else 0x6801) ∧ d.readWord f 0 / 2 ^ 32 % 2 ^ 8 = 0xB0 ∧
    (ConfigReady d f → d.configId f 0 = some (d.readWord f 0 % 2 ^ 32) ∧
      (d.configId f 8).map (· % 2 ^ 8) = some 0xB0)) ∧
  (∀ (d : Dev) (x : Nat), (0x1000 ≤ x ∧ x < 0x10000) ∨ (0x302000 ≤ x ∧ x < 0x400000) ∨ 0x2800000 ≤ x → d.readWord 0 x = 0) ∧
  (∀ (d : Dev) (f x : Nat), f ≠ 0 → (0x3100 ≤ x ∧ x < 0x4000) ∨ (0x6120 ≤ x ∧ x < 0x8000) ∨ 0x7F008 ≤ x →
    d.readWord f x = 0) ∧
  (∀ (d : Dev) (f x : Nat), d.serves f (pageAt f x) = true →
    d.registerRead f x .full = d.readWord f x % 2 ^ 64 ∧
    d.registerRead f x .low + d.registerRead f x .high * 2 ^ 32 = d.readWord f x % 2 ^ 64) ∧
  (∀ (d : Dev) (f x : Nat) (h : Half), d.serves f (pageAt f x) = false → d.registerRead f x h = 0) ∧
  (∀ (f : Nat) (v : Reg) (s : State), f < 7 → f < s.dev.fns.length → s.dev.serves f .glb = true →
    Completes (.registerWrite f 0x28 .full v) s fun d => d.registerRead f 0x28 .full = v.toNat ∧
      ∀ x h, x ≠ 0x28 → s.dev.serves f (pageAt f x) = true → pageAt f x = .glb →
        d.registerRead f x h = s.dev.registerRead f x h)

/-- A write of a table's base register moves the base, 64 B or 128 B aligned, unless the table is in use; the other bases
and everything outside the function's registers and the mirror stay (R92, R119, R137, R422, R458). -/
def Claims.TableBasesMoveOnlyWhileUnused : Prop :=
  ∀ (f t : Nat) (v : Reg) (s : State), f < 7 → t < 4 → f < s.dev.fns.length → s.dev.serves f .rest = true →
    (s.dev.tableInUse f t = true → ∀ h, exec (.tableBaseWrite f t h v) s = .next (s.withDev s.dev.wakeLink)) ∧
    (s.dev.tableInUse f t = false → Completes (.tableBaseWrite f t .full v) s fun d =>
      (d.fn f).tableBase t = v.toNat &&& tableMask t ∧
      (∀ u, u < 4 → u ≠ t → (d.fn f).tableBase u = (s.dev.fn f).tableBase u) ∧
      (∀ g, g ≠ f → d.fn g = s.dev.fn g) ∧ d.mem.hbm = s.dev.mem.hbm ∧
      d = { s.dev.wakeLink with fns := d.fns, mem := { s.dev.mem with mirror := d.mem.mirror } })

/-- HIF_ERROR_LOG returns the oldest unread error and removes it; with none it returns 0 but OVERFLOW (R463). A read of one
half returns that half, and the error goes with its second half (R10, R11). -/
def Claims.ErrorLogReadsRemoveTheOldest : Prop :=
  ∀ (f : Nat) (s : State), f < 7 → f < s.dev.fns.length → s.dev.serves f .rest = true →
    let ov := b2n (s.dev.fn f).errOverflow * 2 ^ 62
    (∀ e es, (s.dev.fn f).errLog = e :: es →
      ((s.dev.fn f).errRead = none → Completes (.errorLogRead f .low) s fun d =>
        (d.fn f).errLog = e :: es ∧ (d.fn f).errRead = some .low ∧ (d.fn f).errOverflow = (s.dev.fn f).errOverflow ∧
        d.bus = s.dev.bus ++ [.data f (le 4 e)] ∧ d = { s.dev with fns := d.fns, bus := d.bus, link := d.link }) ∧
      ((s.dev.fn f).errRead = some .low → Completes (.errorLogRead f .high) s fun d =>
        (d.fn f).errLog = es ∧ (d.fn f).errRead = none ∧ (d.fn f).errOverflow = false ∧
        d.bus = s.dev.bus ++ [.data f (le 4 ((e + ov + 2 ^ 63) / 2 ^ 32))] ∧
        d = { s.dev with fns := d.fns, bus := d.bus, link := d.link })) ∧
    ((s.dev.fn f).errRead = none → Completes (.errorLogRead f .full) s fun d =>
      (∀ e es, (s.dev.fn f).errLog = e :: es → (d.fn f).errLog = es ∧
        d.bus = s.dev.bus ++ [.data f (le 8 (e + ov + 2 ^ 63))]) ∧
      ((s.dev.fn f).errLog = [] → (d.fn f).errLog = [] ∧ d.bus = s.dev.bus ++ [.data f (le 8 ov)]) ∧
      (d.fn f).errOverflow = false ∧ (∀ g, g ≠ f → d.fn g = s.dev.fn g) ∧
      d = { s.dev with fns := d.fns, bus := d.bus, link := d.link })

/-! ### BAR2 and the address spaces of HBM -/

/-- A BAR2 read answers with the bytes its apertures reach, 0 for a denied byte, and counts a denied access once; a poisoned
write is dropped and logged (R438 to R441). -/
def Claims.Bar2ReadsAnswerTheirBytes : Prop :=
  (∀ (f a n : Nat) (s : State), f < 7 → 1 ≤ n → n ≤ 4096 → a + n ≤ bar2Size f → s.dev.serves f .rest = true →
    Completes (.bar2Read f a n) s fun d =>
      d.bus = s.dev.bus ++ [.data f ((upTo n).flatMap fun i => s.dev.barRead f (s.dev.barByte f (a + i)))] ∧
      ((∀ i, i < n → (s.dev.barByte f (a + i)).isSome = true) → d.fns = s.dev.fns) ∧
      ((∃ i, i < n ∧ (s.dev.barByte f (a + i)).isSome = false) → f < s.dev.fns.length →
        (d.fn f).bar2Denied = satAdd 64 (s.dev.fn f).bar2Denied 1) ∧ d.mem = s.dev.mem ∧ d.charter = s.dev.charter) ∧
  (∀ (f a : Nat) (bs : List Byte) (s : State), f < 7 → bs.length ≤ 512 → a + bs.length ≤ bar2Size f →
    s.dev.serves f .rest = true →
    exec (.bar2Write f a bs true) s = .next (s.withDev (s.dev.wakeLink.logError f 7 0 0)))

/-- The interleave of an owner's list sends different bytes of its space to different bytes of its pseudo-channels
(R408). -/
def Obligations.InterleaveIsInjective : Prop :=
  ∀ (l : List Nat) (a b : Nat), l.Nodup → a < l.length * pcSize → b < l.length * pcSize →
    interleave l a = interleave l b → a = b

/-- Owners do not reach each other's HBM: where two owners' lists share no pseudo-channel, bytes one owner's write stores
leave every byte the other reads (R404, R408), and what it stored it reads back. -/
def Obligations.OwnersAreIsolatedInHbm : Prop :=
  ∀ (d : Dev) (o q a : Nat) (bs : List Byte), memWf d.mem.hbm = true →
    (d.pcs o).Nodup → (∀ c ∈ d.pcs o, c ∉ d.pcs q) →
    (∀ b n, (d.ownerWrite o a bs).ownerRead q b n = d.ownerRead q b n) ∧
    (a + bs.length ≤ d.spaceLen o → (d.ownerWrite o a bs).ownerRead o a bs.length = bs) ∧
    (∀ b n, b + n ≤ a ∨ a + bs.length ≤ b → (d.ownerWrite o a bs).ownerRead o b n = d.ownerRead o b n)

/-- A BAR2 write of a function reaches only partitions it owns: every byte of another function's partition, whose list
shares no pseudo-channel with the writer's, reads as before, and HBM keeps its canonical form (R404, R440). -/
def Obligations.Bar2WritesStayInsideTheFunction : Prop :=
  ∀ (f a q : Nat) (bs : List Byte) (s : State), f < 7 → bs.length ≤ 512 → a + bs.length ≤ bar2Size f →
    s.dev.serves f .rest = true → memWf s.dev.mem.hbm = true →
    (∀ p, (s.dev.part? p).any (·.owner == f) = true → ∀ c ∈ s.dev.pcs p, c ∉ s.dev.pcs q) →
    (∀ c ∈ s.dev.pcs commonOwner, c ∉ s.dev.pcs q) →
    Completes (.bar2Write f a bs false) s fun d =>
      memWf d.mem.hbm = true ∧ ∀ b n, d.ownerRead q b n = s.dev.ownerRead q b n

/-! ### Queues, records, interrupts -/

/-- ENABLE (R443): the result it reports is that of the first check that fails; a queue it enables starts at index 0 under
the descriptor of the table, and no other queue changes. -/
def Obligations.QueueEnableChecksInOrder : Prop :=
  ∀ (f q tag : Nat) (s : State), f < 7 → q < 2 ^ 20 → s.dev.serves f .rest = true →
    Busy s.dev f .queue = false →
    let ends := fun (res : Nat) => Host.Outcome.next (s.withDev (Taken s.dev.wakeLink f .queue 50 fun d =>
      d.queueEnds f q (tag % 256) res))
    let first := ((s.dev.funcCfg? f).map (·.queueFirst)).getD 0
    let off := (s.dev.fn f).qdBase + 64 * (q - first)
    let b := s.dev.commonRead f off 64
    let good := off + 64 ≤ (s.dev.commonGrant f).2 ∧ s.dev.descOk f b = true
    (s.dev.sealed = false → exec (.queueEnable f q tag) s = ends 3) ∧
    (s.dev.sealed = true → s.dev.ownsQueue f q = false → exec (.queueEnable f q tag) s = ends 2) ∧
    (s.dev.sealed = true → s.dev.ownsQueue f q = true → s.dev.qstate q ≠ 0 → exec (.queueEnable f q tag) s = ends 3) ∧
    (s.dev.sealed = true → s.dev.ownsQueue f q = true → s.dev.qstate q = 0 → ¬good →
      exec (.queueEnable f q tag) s = ends 1) ∧
    (s.dev.sealed = true → s.dev.ownsQueue f q = true → s.dev.qstate q = 0 → good →
      Completes (.queueEnable f q tag) s fun d =>
        (d.queue? q).map (fun x => (x.fn, x.desc, x.st, x.driver, x.device)) = some (f, b, .enabled, 0, 0) ∧
        (∀ p, p ≠ q → d.queue? p = s.dev.queue? p) ∧
        (f < s.dev.fns.length → ∃ u, u ≤ s.dev.ticks + 50 * usTicks ∧ (d.fn f).queueSts =
          { (s.dev.fn f).queueSts with busy := false, until_ := u, result := 0, tag := tag % 256, a := 1, b := 0 }) ∧
        d = { s.dev.wakeLink with queues := d.queues, fns := d.fns, free := s.dev.free + 1 })

/-- A command written while its register is BUSY sets DROPPED and does nothing else; BUSY of one that was taken clears
within its time, and no other command register of the function changes (R94, R121, R139, R379, R461). -/
def Claims.BusyRegistersDropCommands : Prop :=
  (∀ (c : Instr) (f : Nat) (p : CmdPort) (s : State), portOf c = some (f, p) → s.dev.serves f .rest = true →
    Busy s.dev f p = true → exec c s = .next (s.withDev (Dropped s.dev.wakeLink f p))) ∧
  (∀ (d : Dev) (f us n : Nat) (p : CmdPort), f < d.fns.length →
    let e := d.busyFor f p us n
    ((e.fn f).cmd p).until_ ≤ d.ticks + us * usTicks ∧ e = { d with fns := e.fns } ∧
    (∀ q, q ≠ p → (e.fn f).cmd q = (d.fn f).cmd q) ∧ ∀ g, g ≠ f → e.fn g = d.fn g)

/-- DISABLE, QUERY and RESET (R443, R461): an SQ stops at once; a CQ with records to write stays until they are written,
and its command stays BUSY; RESET takes a queue from ERROR. -/
def Claims.QueueCommandsAnswerByState : Prop :=
  ∀ (f q tag : Nat) (x : Queue) (s : State), f < 7 → q < 2 ^ 20 → s.dev.serves f .rest = true →
    s.dev.ownsQueue f q = true → s.dev.queue? q = some x → Busy s.dev f .queue = false →
    let takes := fun (k : Dev → Dev) => Host.Outcome.next (s.withDev (Taken s.dev.wakeLink f .queue 50 k))
    let ends := fun (res : Nat) => takes fun d => d.queueEnds f q (tag % 256) res
    let stops := takes fun d => (d.modQueue q fun x => { x with st := .disabled }).queueEnds f q (tag % 256) 0
    exec (.queueQuery f q tag) s = ends 0 ∧
    (x.st = .error → exec (.queueReset f q tag) s = stops) ∧
    (x.st ≠ .error → exec (.queueReset f q tag) s = ends 3) ∧
    (x.st = .disabled → exec (.queueDisable f q tag) s = ends 3) ∧
    (x.st ≠ .disabled → x.type ≠ 4 → exec (.queueDisable f q tag) s = stops) ∧
    (x.st ≠ .disabled → x.type = 4 → s.dev.namesCq q = true → exec (.queueDisable f q tag) s = ends 3) ∧
    (x.st ≠ .disabled → x.type = 4 → s.dev.namesCq q = false → x.st = .error ∨ s.dev.owesRecords f q = false →
      exec (.queueDisable f q tag) s = stops) ∧
    (x.st = .enabled → x.type = 4 → s.dev.namesCq q = false → s.dev.owesRecords f q = true →
      exec (.queueDisable f q tag) s = takes fun d => (d.modQueue q fun x => { x with disabling := true }).modFn f
        fun y => { y with queueSts := { y.queueSts with busy := true, tag := tag % 256 } })

/-- A CQ that DISABLE waits for is disabled once its records are written, and the command ends under its tag (R443). -/
def Claims.DisablingQueuesEnd : Prop :=
  ∀ (q : Nat) (x : Queue) (s : State), q < 2 ^ 20 → s.dev.queue? q = some x → x.disabling = true →
    s.dev.owesRecords x.fn q = false → Completes (.cqDisableComplete q) s fun d =>
      d.queue? q = some { x with st := .disabled, disabling := false } ∧
      (x.fn < s.dev.fns.length → (d.fn x.fn).queueSts =
        { (s.dev.fn x.fn).queueSts with busy := false, result := 0, a := 0, b := x.device }) ∧
      (∀ p, p ≠ q → d.queue? p = s.dev.queue? p) ∧ d = { s.dev with queues := d.queues, fns := d.fns }

/-- A doorbell write (R437, R445, R446): the high half is ignored, and so is one of a queue that is not enabled; a valid
value becomes DRIVER; an invalid one takes the queue to ERROR, and counts. -/
def Obligations.DoorbellsMoveTheDriverIndex : Prop :=
  ∀ (f q : Nat) (v : Reg) (x : Queue) (s : State), f < 7 → s.dev.serves f .rest = true →
    s.dev.ownsQueue f q = true → s.dev.queue? q = some x → x.fn = f →
    let d := s.dev.wakeLink
    exec (.doorbellWrite f q .high v) s = .next (s.withDev d) ∧
    (x.st ≠ .enabled → ∀ h, exec (.doorbellWrite f q h v) s = .next (s.withDev d)) ∧
    (x.st = .enabled → v.toNat < 2 ^ 32 →
      (v.toNat = x.driver → exec (.doorbellWrite f q .full v) s = .next (s.withDev d)) ∧
      (v.toNat ≠ x.driver → x.badBell v.toNat = false → exec (.doorbellWrite f q .full v) s =
        .next (s.withDev (d.modQueue q fun x => { x with driver := v.toNat }))) ∧
      (v.toNat ≠ x.driver → x.badBell v.toNat = true → Completes (.doorbellWrite f q .full v) s fun d =>
        d.queue? q = some { x with st := .error } ∧ (∀ p, p ≠ q → d.queue? p = s.dev.queue? p) ∧
        (f < s.dev.fns.length → (d.fn f).doorbellErrors = satAdd 64 (s.dev.fn f).doorbellErrors 1) ∧
        d.ctxs = s.dev.ctxs ∧ d.video = s.dev.video ∧ d.parts = s.dev.parts ∧ d.mem = s.dev.mem)) ∧
    (x.st = .enabled → 2 ^ 32 ≤ v.toNat → Completes (.doorbellWrite f q .full v) s fun d =>
      d.queue? q = some { x with st := .error } ∧ d.mem = s.dev.mem)

/-- The result writer (R297, R396, R448): a record whose queue has a place and none waiting goes to slot DEVICE mod SIZE
with SEQ filled in, and DEVICE moves on; otherwise it goes to the function's OVERFLOW depot, after those already there. -/
def Claims.RecordsGoToTheirSlotOrOverflow : Prop :=
  ∀ (q : Nat) (r : DueRec) (s : State), q < 2 ^ 20 → s.dev.mainUp = true → s.dev.nextDue q = some r →
    (∀ x, s.dev.direct r = true → s.dev.queue? q = some x → Completes (.recordWrite q) s fun d =>
      (∃ rest, d.bus = s.dev.bus ++
        .write x.fn (x.ring + x.device % x.size * 128) (le 4 x.device ++ r.bytes.drop 4) :: rest) ∧
      (d.queue? q).map (·.device) = some ((x.device + 1) % 2 ^ 32) ∧ d.due = dropFirst (·.queue == q) s.dev.due ∧
      (∀ p, p ≠ q → d.queue? p = s.dev.queue? p) ∧ d.ctxs = s.dev.ctxs ∧ d.video = s.dev.video ∧ d.mem = s.dev.mem) ∧
    (s.dev.direct r = false → s.dev.overflowRoom r.fn = true → r.fn < s.dev.fns.length →
      Completes (.recordWrite q) s fun d =>
        (d.fn r.fn).overflow = (s.dev.fn r.fn).overflow ++ [{ queue := q, bytes := r.bytes }] ∧
        d.due = dropFirst (·.queue == q) s.dev.due ∧ d.queues = s.dev.queues ∧ d.ctxs = s.dev.ctxs ∧
        d.video = s.dev.video ∧ d.mem = s.dev.mem)

/-- Records in overflow drain in their order: the oldest of the queue is written first (R396). -/
def Claims.OverflowDrainsInOrder : Prop :=
  ∀ (q : Nat) (x : Queue) (o : OvRec) (s : State), q < 2 ^ 20 → s.dev.mainUp = true → s.dev.queue? q = some x →
    s.dev.cqFree x = true → x.fn < s.dev.fns.length → (s.dev.fn x.fn).overflow.find? (·.queue == q) = some o →
    Completes (.overflowDrain q) s fun d =>
      (∃ rest, d.bus = s.dev.bus ++
        .write x.fn (x.ring + x.device % x.size * 128) (le 4 x.device ++ o.bytes.drop 4) :: rest) ∧
      (d.fn x.fn).overflow.length < (s.dev.fn x.fn).overflow.length ∧ d.due = s.dev.due ∧ d.ctxs = s.dev.ctxs ∧
      d.video = s.dev.video ∧ d.mem = s.dev.mem

/-- A coalescing time that has passed raises the CQ's vector and starts the count anew (R451); unmasking a vector sends the
message that waited (R452). A masked vector, or one whose function may not issue requests, is left pending. -/
def Obligations.InterruptsAreRaisedOnce : Prop :=
  (∀ (q t : Nat) (x : Queue) (s : State), q < 2 ^ 20 → s.dev.mainUp = true → s.dev.queue? q = some x →
    x.st = .enabled → 1 ≤ x.sinceIrq → x.firstTick = some t → t + x.coalesceUs * usTicks ≤ s.dev.ticks →
    Completes (.msixCoalesceTimeout q) s fun d =>
      d.queue? q = some { x with sinceIrq := 0, firstTick := none } ∧
      (∀ p, p ≠ q → d.queue? p = s.dev.queue? p) ∧
      (x.vector ≠ 0xFFFF → x.vector < vecCount x.fn → s.dev.mayRequest x.fn = true →
        bitAt ((s.dev.fn x.fn).entry x.vector).ctl 0 = false →
          d.bus = s.dev.bus ++ [.msix x.fn x.vector] ∧ d.fns = s.dev.fns) ∧
      (x.vector = 0xFFFF → d.bus = s.dev.bus ∧ d.fns = s.dev.fns) ∧
      (x.vector < vecCount x.fn → x.fn < s.dev.fns.length → (s.dev.fn x.fn).present = true →
        bitAt ((s.dev.fn x.fn).entry x.vector).ctl 0 = true ∨ s.dev.mayRequest x.fn = false →
          x.vector ≠ 0xFFFF → d.bus = s.dev.bus ∧ x.vector ∈ (d.fn x.fn).pba)) ∧
  (∀ (f v : Nat) (s : State), f < 7 → v < vecCount f → f < s.dev.fns.length → s.dev.serves f .msix = true →
    Completes (.msixUnmask f v) s fun d =>
      bitAt ((d.fn f).entry v).ctl 0 = false ∧
      (v ∈ (s.dev.fn f).pba → (s.dev.fn f).bme = true → v ∉ (d.fn f).pba ∧ .msix f v ∈ d.bus) ∧
      ((s.dev.fn f).bme = false → (d.fn f).pba = (s.dev.fn f).pba ∧ d.bus = s.dev.bus) ∧
      d.queues = s.dev.queues ∧ d.mem = s.dev.mem)

/-- A fetch (R447): DEVICE moves on by the entries taken and HEAD_ADDR is written, the function has had its turn, and each
entry has its effect; a fetch that ends in error takes its queue to ERROR, counts and is logged (R450). -/
def Obligations.FetchesConsumeOrFail : Prop :=
  (∀ (q : Nat) (es : List (List Byte)) (x : Queue) (s : State), q < 2 ^ 20 → dueSqFetch q es s.dev = true →
    s.dev.queue? q = some x → Completes (.sqFetch q es) s fun d =>
      let n := (es.takeWhile fun e => (s.dev.entryHeld x e).isNone).length
      (d.queue? q).map (·.device) = some (if n = 0 then x.device else (x.device + n) % 2 ^ 32) ∧
      (d.queue? q).map (·.driver) = some x.driver ∧ d.link.lastFn = x.fn ∧
      (x.headAddr ≠ 0 → n ≠ 0 → .write x.fn x.headAddr (le 8 ((x.device + n) % 2 ^ 32)) ∈ d.bus) ∧
      d.charter = s.dev.charter ∧ d.cores = s.dev.cores ∧ d.ctxs = s.dev.ctxs) ∧
  (∀ (q : Nat) (x : Queue) (s : State), s.dev.mainUp = true → s.dev.lwd.st = .active → s.dev.sealed = true →
    s.dev.queue? q = some x → s.dev.fetchable x = true → exec (.fetchCompletionError (.entries q)) s =
      .next (s.withDev (((s.dev.modQueue q fun x => { x with st := .error }).modFn x.fn fun y =>
        { y with fetchErrors := satAdd 64 y.fetchErrors 1 }).logError x.fn 2 q 0)))

/-! ### Depots -/

/-- Buffers are conserved: allocation takes the head of the free list, freeing puts a buffer back at its head, rebuilding
orders the free ones, and each keeps every buffer free or held, never both (R383, R385, R386). -/
def Obligations.DepotBuffersAreConserved : Prop :=
  ∀ (x : Depot) (o i : Nat), DepotWhole x →
    (x.free ≠ [] → DepotWhole (x.take o).2 ∧ (x.take o).1 = x.free.headD 0 ∧ ((x.take o).1, o) ∈ (x.take o).2.held) ∧
    DepotWhole (x.give i) ∧ (i ∈ x.held.map (·.1) → (x.give i).free = i :: x.free ∧ i ∉ (x.give i).held.map (·.1)) ∧
    (i ∉ x.held.map (·.1) → x.give i = x) ∧
    DepotWhole x.rebuilt ∧ x.rebuilt.held = x.held ∧ x.rebuilt.free.Pairwise (· < ·)

/-- An owner below its reservation gets a buffer while one is free; above it, only a buffer no other owner's reservation
still needs (R387). -/
def Claims.ReservationsAreHonoured : Prop :=
  ∀ (x : Depot) (o : Nat), x.id < 0x50 → x.rebuild = false →
    (x.free ≠ [] → x.holds o < x.resOf o → x.canAlloc o = true) ∧
    (x.canAlloc o = true → x.resOf o ≤ x.holds o → x.othersNeed o < x.free.length) ∧
    (x.free = [] → x.canAlloc o = false)

/-- A bad header counts, and stops allocation until the free list is rebuilt, which FREE_LIST_REBUILD_DONE does (R386). -/
def Claims.BadHeadersRebuildTheFreeList : Prop :=
  (∀ (i : Nat) (w : Want) (x : Depot) (s : State), i < 256 → s.dev.mainUp = true → s.dev.depot? i = some x →
    x.id < 0x50 → x.rebuild = false → x.free ≠ [] → Completes (.depotAllocate i w true) s fun d =>
      d.depot? i = some { x with tagErr := satAdd 64 x.tagErr 1, rebuild := true } ∧
      (∀ j, j ≠ i → d.depot? j = s.dev.depot? j) ∧ d.video = s.dev.video ∧ d.trk = s.dev.trk ∧ d.parts = s.dev.parts) ∧
  (∀ (i : Nat) (x : Depot) (s : State), i < 256 → s.dev.mainUp = true → s.dev.depot? i = some x → x.rebuild = true →
    exec (.freeListRebuildDone i) s = .next (s.withDev (s.dev.modDepot i Depot.rebuilt)))

/-! ### Charter -/

/-- The charter's commands (R355, R356, R378): each is BUSY with the outcome it will report; one that its state forbids
changes nothing else, and one sent while another is BUSY is dropped. LOAD takes the staged charter its checks accept; SEAL
zeroes HBM and the cores, clears the waymarks and closes HBM; UNLOAD is refused while a partition works. -/
def Claims.CharterCommandsFollowItsState : Prop :=
  ∀ (tag : Nat) (s : State), s.dev.serves 0 .rest = true →
    let d := s.dev.wakeLink
    let c := s.dev.charter
    let busy := fun (c : CharterSt) (op res sec ent : Nat) =>
      Host.Outcome.next (s.withDev { d with charter := { c with
        busy := some { op := op, result := res, section_ := sec, entry := ent }, tag := tag % 256 } })
    let load := loadCharter ((s.dev.sec.running.map (·.charterKeys)).getD []) (stagedImage c.staging)
    (c.busy.isSome = true →
      let drop := Host.Outcome.next (s.withDev
        (({ d with charter := { c with dropped := true } } : Dev).fire .charterDropped))
      exec (.charterLoad tag) s = drop ∧ exec (.charterDiscard tag) s = drop ∧ exec (.charterSeal tag) s = drop ∧
      exec (.charterUnload tag) s = drop) ∧
    (c.busy = none →
      (c.st ≠ .empty → exec (.charterLoad tag) s = busy c 1 7 0 0) ∧
      (∀ x, c.st = .empty → load = .ok x →
        exec (.charterLoad tag) s = busy { c with st := .loaded, cur := some x } 1 0 0 0) ∧
      (∀ r e i, c.st = .empty → load = .error (r, e, i) → exec (.charterLoad tag) s = busy c 1 r e i) ∧
      (c.st ≠ .loaded → exec (.charterDiscard tag) s = busy c 3 7 0 0 ∧ exec (.charterSeal tag) s = busy c 2 7 0 0) ∧
      (c.st = .loaded → exec (.charterDiscard tag) s = busy { c with st := .empty, cur := none } 3 0 0 0) ∧
      (∀ x, c.st = .loaded → c.cur = some x → Completes (.charterSeal tag) s fun d =>
        d.charter = { c with st := .sealed, tag := tag % 256
                             busy := some { op := 2, result := 0, section_ := 0, entry := 0 } } ∧
        d.mem.hbm = [] ∧ d.mem.open_ = false ∧ d.wmk = [] ∧ d.trk.verdicts = [] ∧
        (∀ k ∈ d.cores, k.mem = CoreMem.zero ∧ k.job = none) ∧ (∀ y ∈ d.depots, y.held = []) ∧
        d.fns = s.dev.fns ∧ d.sec = s.dev.sec ∧ d.lwd = s.dev.lwd) ∧
      (c.st ≠ .sealed → exec (.charterUnload tag) s = busy c 4 7 0 0) ∧
      (c.st = .sealed → s.dev.idle = false → exec (.charterUnload tag) s = busy c 4 6 0 0) ∧
      (c.st = .sealed → s.dev.idle = true → Completes (.charterUnload tag) s fun d =>
        d.charter = { c with st := .empty, cur := none, tag := tag % 256
                             busy := some { op := 4, result := 0, section_ := 0, entry := 0 } } ∧
        (∀ p ∈ d.parts, p.defined = false) ∧ d.depots = [] ∧ d.trk.verdicts = [] ∧ d.mem.open_ = false))

/-- The end of a charter command reports its outcome; after a SEAL that succeeded HBM is open (R355, R378). -/
def Claims.CharterCommandsEnd : Prop :=
  ∀ (r : CharterRes) (s : State), s.dev.charter.busy = some r → exec .charterCommandDone s =
    .next (s.withDev { s.dev with
      charter := { s.dev.charter with busy := none, result := r.result, section_ := r.section_, entry := r.entry }
      mem := { s.dev.mem with open_ := s.dev.mem.open_ || (r.op == 2 && r.result == 0) } })

/-! ### Jobs -/

/-- A start decision (R33, R34, R49, R50, R267, R357, R360): a runnable becalmed context goes before the list and is
restored onto the first free cores; else the head of the list starts on them, its cores fresh and its waymarks clear; a head
that fails a check ends without running, with its JOB record. -/
def Obligations.DispatchStartsTheFirstThatCan : Prop :=
  ∀ (n : Nat) (p : Part) (s : State), n < 6 → s.dev.part? n = some p → s.dev.mayStart p = true →
    (∀ x, s.dev.firstReady n = some x → x.mf.cores ≤ (s.dev.freeCores p).length → Completes (.jobStart n) s fun d =>
      let cs := (s.dev.freeCores p).take x.mf.cores
      (d.ctx? x.entry.id).map (·.lane) = some (some (.restore cs)) ∧
      (x.entry.id ∈ d.mem.laneQueue ∨ d.mem.laneBusy = some x.entry.id) ∧ d.parts = s.dev.parts ∧
      (∀ c, c ∉ cs → d.core c = s.dev.core c)) ∧
    (∀ e ids pl, s.dev.firstReady n = none → s.dev.headMove p = some (e, ids, pl) → pl.status = 0 →
      Completes (.jobStart n) s fun d =>
        let cs := (s.dev.freeCores p).take pl.mf.cores
        (∃ x : Ctx, d.ctxs = s.dev.ctxs ++ [x] ∧ x.entry.id = e.id ∧ x.st = .running ∧ x.cores = cs ∧ x.attempt = 0 ∧
          x.now = 0 ∧ x.mf = pl.mf ∧ x.shapes = pl.shapes ∧ x.adds = [] ∧
          ∀ w, x.wmBase ≤ w → w < x.wmBase + pl.mf.wmCount → d.wmkAt w = { ix := w, count := 0, counter := false }) ∧
        (∀ c, c ∈ cs → c < s.dev.cores.length → (d.core c).job = some e.id ∧ (d.core c).run = CoreRun.start) ∧
        (∀ c, c ∉ cs → d.core c = s.dev.core c)) ∧
    (∀ e ids pl tag cq off mu ep, s.dev.firstReady n = none → s.dev.headMove p = some (e, ids, pl) → pl.status ≠ 0 →
      e.src = .host tag cq off mu ep → Completes (.jobStart n) s fun d =>
        d.ctxs = s.dev.ctxs ∧ d.cores = s.dev.cores ∧
        d.due = s.dev.due ++ [{ fn := e.fn, queue := cq, last := none
                                bytes := jobRecord e.id tag (JobEnd.nothing pl.status 0) }])

/-- A job completes in the ck its last core retires END, or in its planned ck if that is later (R35, R54): its context is
gone, its cores are free, and a host job's record carries ACTUAL_CK, the cores, the attempts and the conditions, LATE after
a reissue too (R56). -/
def Claims.JobsCompleteWithTheirRecord : Prop :=
  ∀ (j e : Nat) (x : Ctx) (s : State), s.dev.ctx? j = some x → s.dev.flows x = true →
    lastEnd (s.dev.runs x) = some e → x.replays = [] → Completes (.jobComplete j) s fun d =>
      let actual := max x.mf.planned (x.localCk e)
      d.ctx? j = none ∧ (∀ k ∈ d.cores, k.job ≠ some j) ∧ (∀ y ∈ s.dev.ctxs, y.entry.id ≠ j → ∃ z ∈ d.ctxs, z.entry = y.entry) ∧
      (∀ tag cq off mu ep, x.entry.src = .host tag cq off mu ep → ∃ en : JobEnd,
        d.due = s.dev.due ++ [{ fn := x.entry.fn, queue := cq, bytes := jobRecord j tag en, last := none }] ∧
        en.actual = actual ∧ en.cause = 0 ∧ en.cores = x.coreMask ∧ en.attempts = x.attempt + 1 ∧
        en.becalmed = x.becalmed ∧ (0x12 ∈ en.codes ↔ x.violation = true) ∧ (3 ∈ en.codes ↔ 0 < x.replayCk) ∧
        (2 ∈ en.codes ↔ x.mf.planned + x.replayCk < actual ∨ 0 < x.attempt)) ∧
      d.charter = s.dev.charter ∧ d.lwd = s.dev.lwd ∧ d.queues = s.dev.queues

/-- The watchdog tears its job down with JOB_FAULT and cause WATCHDOG (R58, R369): the context is gone, and its cores are
free and scrubbed. -/
def Claims.TheWatchdogTearsTheJobDown : Prop :=
  ∀ (j : Nat) (x : Ctx) (s : State), s.dev.ctx? j = some x → dueWatchdog j s.dev = true →
    Completes (.watchdog j) s fun d =>
      d.ctx? j = none ∧ (∀ k ∈ d.cores, k.job ≠ some j) ∧
      (∀ c, (s.dev.core c).job = some j → (d.core c).mem = CoreMem.zero ∧ (d.core c).run = CoreRun.start) ∧
      (∀ tag cq off mu ep, x.entry.src = .host tag cq off mu ep → ∃ en : JobEnd,
        d.due = s.dev.due ++ [{ fn := x.entry.fn, queue := cq, bytes := jobRecord j tag en, last := none }] ∧
        0x13 ∈ en.codes ∧ en.cause = 4 ∧ en.attempts = x.attempt + 1) ∧
      d.charter = s.dev.charter ∧ d.lwd = s.dev.lwd ∧ d.queues = s.dev.queues

/-- A save moves the cores' memories to the context and frees them; a restore puts them back where it takes its cores
(R364 to R366). -/
def Claims.SavesAndRestoresKeepTheCores : Prop :=
  (∀ (j : Nat) (x : Ctx) (t : CtxSt) (s : State), s.dev.ctx? j = some x → x.lane = some (.save t) → t ≠ .becBlocked →
    x.heldBy ≠ some .busMaster → s.dev.mainUp = true → s.dev.laneDone x = true → x.paused = false →
    Completes (.saveComplete j) s fun d => ∃ y, d.ctx? j = some y ∧ y.st = t ∧ y.cores = [] ∧ y.lane = none ∧
      y.becalmed = x.becalmed + 1 ∧ y.saveSlot = x.saveSlot ∧ y.now = x.now ∧
      y.saved.map (·.mem) = x.cores.map (fun c => (s.dev.core c).mem) ∧
      (∀ c ∈ x.cores, (d.core c).job = none ∧ (d.core c).run = CoreRun.start) ∧
      (∀ c, c ∉ x.cores → d.core c = s.dev.core c)) ∧
  (∀ (j : Nat) (x : Ctx) (p : Part) (cs : List Nat) (s : State), s.dev.ctx? j = some x → x.lane = some (.restore cs) →
    s.dev.part? x.entry.part = some p → p.held = false → s.dev.mainUp = true → s.dev.clk.refPresent = true →
    s.dev.laneDone x = true → cs.Nodup → (∀ c ∈ cs, c < s.dev.cores.length) →
    Completes (.restoreComplete j) s fun d => ∃ y, d.ctx? j = some y ∧ y.cores = cs ∧ y.saved = [] ∧ y.saveSlot = none ∧
      y.lane = none ∧ (y.st = .running ∨ y.st = .blocked) ∧ y.now = x.now ∧ y.attempt = x.attempt ∧
      (∀ i (h : i < cs.length) (h' : i < x.saved.length),
        (d.core cs[i]).mem = x.saved[i].mem ∧ (d.core cs[i]).run = x.saved[i].run) ∧
      (∀ c, c ∉ cs → d.core c = s.dev.core c))

/-- An eviction sends the longest blocked contexts to save slots (R364, R367); a draining device evicts every blocked
context, and tears down one that has no slot (R468). -/
def Claims.EvictionsBecalmBlockedContexts : Prop :=
  ∀ (n : Nat) (p : Part) (x : Ctx) (xs : List Ctx) (s : State), n < 6 → s.dev.part? n = some p → s.dev.mainUp = true →
    (∀ sl, s.dev.lwd.st ≠ .draining → s.dev.mayStart p = true → s.dev.eviction p = x :: xs →
      s.dev.freeSlot p = some sl → Completes (.evict n) s fun d =>
        (∃ y, d.ctx? x.entry.id = some y ∧ y.lane = some (.save .becBlocked)) ∧ d.cores = s.dev.cores ∧
        d.parts = s.dev.parts) ∧
    (∀ sl, s.dev.lwd.st = .draining → s.dev.blocked n false = x :: xs → s.dev.freeSlot p = some sl →
      exec (.evict n) s = .next (s.withDev (s.dev.becalm x sl .becBlocked none))) ∧
    (s.dev.lwd.st = .draining → s.dev.blocked n false = x :: xs → s.dev.freeSlot p = none →
      Completes (.evict n) s fun d => d.ctx? x.entry.id = none ∧ ∀ k ∈ d.cores, k.job ≠ some x.entry.id)

/-- At its start point, which the core clock counts, a waiting job of the current epoch starts on its cores; after the
point's wall time LATE_START is set (R335, R338, R363). -/
def Claims.MusterStartsWaitingJobs : Prop :=
  ∀ (p : Part) (e : JobEntry) (pl : JobPlan) (t u : Nat) (s : State), s.dev.part? p.id = some p → p.id < 6 →
    (∀ q, q ≠ p.id → s.dev.part? q = none) → s.dev.dau.startTick = some t → s.dev.dau.startCk = some u →
    u ≤ s.dev.coreRun → s.dev.mayStart p = true → s.dev.clk.level < 64 → s.dev.musterMove p = some (e, pl) → pl.status = 0 →
    Completes .musterStart s fun d =>
      (∃ x ∈ d.ctxs, x.entry.id = e.id ∧ x.st = .running ∧ x.now = 0 ∧
        x.cores = (s.dev.freeCores p).take pl.mf.cores) ∧
      (t < s.dev.ticks → d.dau.lateStart = true) ∧ (s.dev.ticks ≤ t → d.dau = s.dev.dau) ∧
      d.charter = s.dev.charter

/-- DSP_CTX_CMD (R372, R379): a job of another function or an unknown one is refused; QUERY answers its state; PREEMPT takes
a running job to a slot and refuses where none is free; RESUME lets a held one run; CANCEL removes it. -/
def Claims.ContextCommandsAnswerByState : Prop :=
  ∀ (f j tag : Nat) (p : Part) (s : State), f < 7 → j < 2 ^ 32 → s.dev.serves f .rest = true →
    Busy s.dev f .ctx = false → s.dev.part? (j / 2 ^ 29) = some p →
    let takes := fun (k : Dev → Dev) => Host.Outcome.next (s.withDev (Taken s.dev.wakeLink f .ctx 50 k))
    let ends := fun (res : Nat) => takes fun d => d.ctxEnds f j (tag % 256) res
    (p.owner ≠ f → ∀ c ∈ [Instr.preempt f j tag, .resume f j tag, .cancel f j tag, .ctxQuery f j tag],
      exec c s = takes fun d => d.modFn f fun x => { x with ctxSts :=
        { x.ctxSts with busy := false, result := 2, tag := tag % 256, a := 7, b := j } }) ∧
    (p.owner = f → s.dev.ctx? j = none → s.dev.waiting? j = none →
      ∀ c ∈ [Instr.preempt f j tag, .resume f j tag, .cancel f j tag, .ctxQuery f j tag], exec c s = ends 5) ∧
    (p.owner = f → (s.dev.ctx? j).isSome = true ∨ (s.dev.waiting? j).isSome = true →
      exec (.ctxQuery f j tag) s = ends 0) ∧
    (∀ x, p.owner = f → s.dev.ctx? j = some x →
      (x.st = .becReady ∨ x.st = .becBlocked ∨ x.st = .held → exec (.preempt f j tag) s = ends 4) ∧
      (x.st ≠ .held → exec (.resume f j tag) s = ends 4) ∧
      (x.st = .running ∨ x.st = .blocked → lastEnd (s.dev.runs x) = none → x.lane = none → s.dev.freeSlot p = none →
        exec (.preempt f j tag) s = ends 3) ∧
      (∀ sl, x.st = .running ∨ x.st = .blocked → lastEnd (s.dev.runs x) = none → x.lane = none →
        s.dev.freeSlot p = some sl → Completes (.preempt f j tag) s fun d =>
          (∃ y, d.ctx? j = some y ∧ y.lane = some (.save .held) ∧ y.saveSlot = some sl ∧ y.heldBy = some .preempt) ∧
          (f < s.dev.fns.length → (d.fn f).ctxSts.result = 0) ∧ d.cores = s.dev.cores ∧ d.parts = s.dev.parts) ∧
      (x.st = .held → Completes (.resume f j tag) s fun d =>
        (∃ y, d.ctx? j = some y ∧ (y.st = .becReady ∨ y.st = .becBlocked) ∧ y.heldBy = none) ∧
        (f < s.dev.fns.length → (d.fn f).ctxSts.result = 0) ∧ d.cores = s.dev.cores ∧ d.parts = s.dev.parts) ∧
      Completes (.cancel f j tag) s fun d => d.ctx? j = none ∧ (∀ k ∈ d.cores, k.job ≠ some j) ∧
        (f < s.dev.fns.length → (d.fn f).ctxSts.result = 0))

/-- A partition reset by its owner tears down every context of the partition and clears its waymarks; by another function it
does nothing (R373). -/
def Claims.PartitionResetClearsThePartition : Prop :=
  ∀ (f n : Nat) (p : Part) (s : State), f < 7 → n < 6 → s.dev.serves f .rest = true → s.dev.part? n = some p →
    (p.owner ≠ f → exec (.partitionReset f n) s = .next (s.withDev s.dev.wakeLink)) ∧
    (p.owner = f → Completes (.partitionReset f n) s fun d =>
      (∀ x ∈ d.ctxs, x.entry.part ≠ n) ∧
      (∀ w, p.wmFirst ≤ w → w < p.wmFirst + p.wmCount → d.wmkAt w = { ix := w, count := 0, counter := false }) ∧
      d.charter = s.dev.charter)

/-- A host write of a waymark adds to its COUNT modulo 2^32, and reaches no other waymark; a private one of a resident job,
and one of another function's partition, ignore it (R267, R283). -/
def Obligations.WaymarkSignalsAddToTheirCount : Prop :=
  ∀ (f w a : Nat) (s : State), f < 7 → w < 65536 → s.dev.serves f .rest = true →
    let own := f == 0 || (s.dev.wmPart w).any (·.owner == f)
    (own = false ∨ s.dev.wmPrivate w = true →
      exec (.waymarkSignal f w a) s = .next (s.withDev s.dev.wakeLink)) ∧
    (own = true → s.dev.wmPrivate w = false → Completes (.waymarkSignal f w a) s fun d =>
      (d.wmkAt w).count = ((s.dev.wmkAt w).count + a) % 2 ^ 32 ∧ (d.wmkAt w).counter = (s.dev.wmkAt w).counter ∧
      (∀ v, v ≠ w → d.wmkAt v = s.dev.wmkAt v) ∧
      d = { s.dev.wakeLink with wmk := d.wmk, ctxs := d.ctxs })

/-! ### Tile instructions -/

/-- A tile instruction that is due issues (R246, R247, R252, R272, R278): its core's instruction index moves on by one, its
issue ck is held as the last, what it was late by adds to the slip, a scale prefix stays for the next instruction alone, END
ends the core; the other cores stand as the schedule left them, and nothing outside the jobs changes. -/
def Obligations.TileInstructionsIssue : Prop :=
  ∀ (row : TileOp) (c : Nat) (ecc : Ecc) (st : State) (s : Seat) (w t plan : Nat), row ≠ .gate →
    ecc.uncorrectable = false → Issuing st.dev row c s w t plan → Completes (tileCommand row c ecc) st fun d =>
      let k := d.core c
      k.run.ip = s.k.run.ip + 1 ∧ k.run.last = some t ∧ k.run.slip = s.k.run.slip + (t - plan) ∧
      k.run.scalePre = (if row = .prefix_ then some (bits w 24 20, bits w 44 20) else none) ∧
      k.run.ended = (if row = .end_ then some t else none) ∧ k.run.gate = none ∧ k.job = s.k.job ∧ k.slot = s.k.slot ∧
      (row.cls = 0 ∨ row.cls = 3 ∨ row.cls = 5 → k.mem = { s.k.mem with dig := k.mem.dig }) ∧
      (row ≠ .dgp → row ≠ .end_ → row.cls = 0 ∨ row.cls = 3 ∨ row.cls = 5 → k.mem.dig = s.k.mem.dig) ∧
      (∃ y, d.ctx? s.x.entry.id = some y ∧ y.entry = s.x.entry ∧ y.now = t ∧ y.cores = s.x.cores ∧ y.st = s.x.st ∧
        y.attempt = s.x.attempt) ∧
      (∀ o, o ≠ c → d.core o = (Reached st.dev c t).core o) ∧ OnlyJobs st.dev d ∧
      (plan = t → row ≠ .dgp → row ≠ .end_ → d.mem = (Reached st.dev c t).mem ∧ d.parts = (Reached st.dev c t).parts)

/-- MXM, CNV and DWC run their plan on the core's data path, PLX pools and SHL loads the shadow banks (R147, R221, R226,
R228, R254, R257); a window of no size sets WIN_EMPTY (R218). -/
def Claims.ArrayRowsRunTheirPlan : Prop :=
  ∀ (c : Nat) (ecc : Ecc) (st : State) (s : Seat) (w t plan : Nat), ecc.uncorrectable = false →
    let issues := fun row => Issuing st.dev row c s w t plan
    let empty := fun (v : Win) (m : CoreMem) =>
      if sizePos (v.outSize v.ih.1 v.iw.1) then m else { m with win := m.win ||| 1 }
    (∀ m n k, issues .mxm → mxmLens s.k.run t w = some (m, n, k) → Completes (.mxm c ecc) st fun d =>
      (d.core c).mem = (mxmPlan w s.k.run.scalePre m.1 n.1 k.1).run s.k.mem) ∧
    (∀ v n, issues .cnv → s.win w = some v → winN s.k.run t w false = some n → Completes (.cnv c ecc) st fun d =>
      (d.core c).mem = (winPlan w false v s.k.run.scalePre n.1 false).run (empty v s.k.mem)) ∧
    (∀ v n, issues .dwc → s.win w = some v → winN s.k.run t w true = some n → Completes (.dwc c ecc) st fun d =>
      (d.core c).mem = (winPlan w true v s.k.run.scalePre n.1 false).run (empty v s.k.mem)) ∧
    (∀ v, issues .plx → s.win w = some v → Completes (.plx c ecc) st fun d =>
      (d.core c).mem = plxRun v (bits w 24 4) (s.k.run.digLr t s.k.mem.dig) s.k.mem) ∧
    (issues .shl → Completes (.shl c ecc) st fun d => (d.core c).mem = shlRun w s.k.mem)

/-- What an array plan may touch (R145, R149, R153, R171): no scratchpad byte, no open digest entry, no ACM word outside its
lines; a cell of two integer formats that does not accumulate holds the wrapped sum of the products of its enabled elements,
and one that accumulates clamps the new total to 32 bits, its line's other words staying as they were. -/
def Claims.ArrayPlansWriteOnlyTheirLines : Prop :=
  (∀ (p : ArrPlan) (m : CoreMem), p.lines.length = p.nk → memWf m.acm = true →
    (p.run m).csp = m.csp ∧ (p.run m).dig = m.dig ∧ (p.run m).win = m.win ∧
    ∀ line col, col < 64 → Outside (p.lines.map fun l => (l.1, l.1 + 32 * p.tp)) line →
      acmWord (p.run m) line col = acmWord m line col) ∧
  (∀ (sf wf line col : Nat) (acc : Bool) (ps : List (FV × FV)) (m : CoreMem), fmtIsInt sf = true → fmtIsInt wf = true →
    col < 64 → memWf m.acm = true →
    let iv := fun (x : FV) => match x with
      | .fin g v _ => sInt g v
      | _ => 0
    let d : Int := ps.foldl (fun (n : Int) p => n + iv p.1 * iv p.2) 0
    let total := if acc then clampI (-2147483648) 2147483647 (sext 32 (acmWord m line col) + d) else d
    acmWord (cellWrite sf wf line col acc ps m) line col = wrapInt 32 total ∧
    ∀ l k, k < 64 → (l, k) ≠ (line, col) → acmWord (cellWrite sf wf line col acc ps m) l k = acmWord m l k) ∧
  (∀ (v : Win) (f lr : Nat) (m : CoreMem), memWf m.csp = true → v.npos.1 ≤ v.npos.2 →
    (plxRun v f lr m).acm = m.acm ∧ (plxRun v f lr m).shadow = m.shadow ∧ (plxRun v f lr m).active = m.active ∧
    ∀ a, Outside (plxWrites v f) a → memRead (plxRun v f lr m).csp a = memRead m.csp a) ∧
  (∀ (w : Nat) (m : CoreMem), shlRun w m = { m with shadow := (shlRun w m).shadow })

/-- A vector instruction runs on the scratchpad with the lengths latched at its issue, its run-time lengths at most the
planned ones (R189, R190); it writes its destination's spans alone, and reaches neither the ACM nor the operand banks. -/
def Obligations.VectorRowsWriteTheirDestination : Prop :=
  (∀ (row : TileOp) (c : Nat) (ecc : Ecc) (st : State) (s : Seat) (w t plan : Nat), row.cls = 2 →
    ecc.uncorrectable = false → Issuing st.dev row c s w t plan → Completes (tileCommand row c ecc) st fun d =>
      let l := s.k.run.vlens t
      (d.core c).mem = (s.vec w).run (s.k.run.digLr t s.k.mem.dig) (min l.1 l.2.2.1) (min l.2.1 l.2.2.2) l.2.2.1 l.2.2.2
        s.k.mem) ∧
  (∀ (v : VecOp) (lr vl vr vlp vrp : Nat) (m : CoreMem), vl ≤ vlp → vr ≤ vrp → memWf m.csp = true →
    let m' := v.run lr vl vr vlp vrp m
    m'.acm = m.acm ∧ m'.shadow = m.shadow ∧ m'.active = m.active ∧ m'.steps = m.steps ∧ m'.win = m.win ∧
    ∀ a, Outside (v.writes vlp vrp) a → memRead m'.csp a = memRead m.csp a)

/-- SETLEN (R190, R246, R252, R264): VL, VR or a length register takes the value and its planned value, seen by instructions
that issue from the next ck on; the other registers keep theirs. -/
def Claims.SetlenSetsItsRegister : Prop :=
  ∀ (c : Nat) (st : State) (s : Seat) (w t plan : Nat), Issuing st.dev .setlen c s w t plan →
    Completes (.setlen c) st fun d =>
      let r := (d.core c).run
      let r0 := s.k.run
      let set := fun (l l0 : LReg) =>
        l.at (t + 1) = (setlenVal w s.x.shapes, bits w 40 17) ∧ l.at t = l0.at t
      (bits w 32 4 = 0 → set r.vl r0.vl ∧ r.vr = r0.vr ∧ r.lrs = r0.lrs) ∧
      (bits w 32 4 = 1 → set r.vr r0.vr ∧ r.vl = r0.vl ∧ r.lrs = r0.lrs) ∧
      (8 ≤ bits w 32 4 → r0.lrs.length = 8 → set (r.lr (bits w 32 4 - 8)) (r0.lr (bits w 32 4 - 8)) ∧ r.vl = r0.vl ∧
        r.vr = r0.vr ∧ ∀ n, n ≠ bits w 32 4 - 8 → r.lr n = r0.lr n)

/-- DGP closes the open layer digest and opens the slot's next; one at another entry, and END over an entry still open,
breaks the contract (R271, R326, R327). -/
def Claims.DigestsCloseInOrder : Prop :=
  (∀ (c : Nat) (st : State) (s : Seat) (w t plan : Nat) (g : DigOpen), Issuing st.dev .dgp c s w t plan →
    s.k.mem.dig = some g → Completes (.dgp c) st fun d =>
      (d.core c).mem.dig = s.x.mf.nextDig s.slot g.entry ∧ (d.core c).run.nextEntry = s.k.run.nextEntry + 1 ∧
      (d.ctx? s.x.entry.id).map (·.violation) = some (s.x.violation || bits w 24 12 != g.entry) ∧
      (bitAt s.p.dauCtl 0 = false → plan = t → d.mem = (Reached st.dev c t).mem) ∧
      (∀ a, bitAt s.p.dauCtl 0 = true → plan = t → ringSlot s.p.dgRing 4 20 32 s.p.granted s.p.dgNext = some a →
        d.mem = ((Reached st.dev c t).ownerWrite s.p.id a (le 4 s.x.entry.id ++ le 2 g.entry ++ le 2 g.layer ++
          le 8 g.dsum ++ le 8 g.dxor ++ le 4 (min g.count (2 ^ 32 - 1)) ++ le 1 s.slot ++
          le 1 (s.x.attempt + (if bits w 24 12 = g.entry then 0 else 4)) ++ zeros 2)).mem)) ∧
  (∀ (c : Nat) (st : State) (s : Seat) (w t plan : Nat), Issuing st.dev .dgp c s w t plan → s.k.mem.dig = none →
    Completes (.dgp c) st fun d => (d.core c).mem.dig = none ∧
      (d.ctx? s.x.entry.id).map (·.violation) = some true) ∧
  (∀ (c : Nat) (st : State) (s : Seat) (w t plan : Nat), Issuing st.dev .end_ c s w t plan →
    Completes (.tileEnd c) st fun d => (d.core c).mem.dig = none ∧ (d.core c).run.ended = some t ∧
      (d.ctx? s.x.entry.id).map (·.violation) = some (s.x.violation || s.k.mem.dig.isSome))

/-- Waymarks of a job (R14, R268 to R270): a WMS's value is added 24 ck after its issue; a CFA reads COUNT into its length
register, readable 24 ck later, and adds, leaves or sets it; no other waymark changes. -/
def Obligations.WaymarkRowsActOnTheirWaymark : Prop :=
  (∀ (c : Nat) (st : State) (s : Seat) (w t plan : Nat), Issuing st.dev .wms c s w t plan →
    Completes (.wms c) st fun d =>
      (d.ctx? s.x.entry.id).map (·.adds) = some (s.x.adds ++ [(s.x.devWm s.p (bits w 24 16), bits w 40 32, t + 24)]) ∧
      d.wmk = (Reached st.dev c t).wmk) ∧
  (∀ (row : TileOp) (c : Nat) (st : State) (s : Seat) (w t plan : Nat),
    row = .cfaAdd ∨ row = .cfaLoad ∨ row = .cfaInit → Issuing st.dev row c s w t plan → s.k.run.lrs.length = 8 →
    Completes (tileCommand row c Ecc.none) st fun d =>
      let e := Reached st.dev c t
      let n := s.x.devWm s.p (bits w 24 16)
      let l := (d.core c).run.lr (bits w 72 3)
      (row = .cfaAdd → d.wmkAt n = { e.wmkAt n with count := ((e.wmkAt n).count + bits w 40 32) % 2 ^ 32 }) ∧
      (row = .cfaLoad → d.wmkAt n = e.wmkAt n) ∧
      (row = .cfaInit → d.wmkAt n = { e.wmkAt n with count := bits w 40 32, counter := true }) ∧
      (∀ v, v ≠ n → d.wmkAt v = e.wmkAt v) ∧ (l.at (t + 1)).1 = (e.wmkAt n).count ∧ l.readable = t + 24 ∧
      (∀ v, v ≠ bits w 72 3 → (d.core c).run.lr v = s.k.run.lr v)) ∧
  (∀ count value : Nat, count < 2 ^ 32 → value < 2 ^ 32 →
    (wmSat count value = true ↔ (count + 2 ^ 32 - value) % 2 ^ 32 < 2 ^ 31))

/-- LDT and STT take the next place of their core's queue (R39, R40, R265): the transfer names its region's bytes and its
scratchpad place; it is released 900 ck and its n / b ck after the issue, and at least n / b ck after the one before; where
no transfer of another core meets its bytes, then. An STT carries the scratchpad's bytes of its issue, an LDT memory's. The
queue stays in order. -/
def Claims.TransfersQueueWithTheirBound : Prop :=
  ∀ (row : TileOp) (c : Nat) (ecc : Ecc) (st : State) (s : Seat) (w t plan : Nat) (x : XferPlan) (hs : List Hold),
    row = .ldt ∨ row = .stt → ecc.uncorrectable = false → Issuing st.dev row c s w t plan → Ordered s.k.run →
    xferPlan s t w = some (x, hs) → Completes (tileCommand row c ecc) st fun d => ∃ q : Transfer,
      let e := Reached st.dev c t
      let n := ceilDiv x.planned s.p.b
      let bound := max (t + 900 + n) (if s.k.run.queue.isEmpty then 0 else s.k.run.lastRelease + n)
      let met := (e.inFlight s.x).any fun o => o.1 != c && o.2.store != (row == .stt) &&
        touches [(x.region.base + x.off, x.region.base + x.off + x.run)] (o.2.addr, o.2.addr + o.2.run)
      (d.core c).run.queue = s.k.run.queue ++ [q] ∧ (d.core c).run.lastRelease = q.release ∧
      q.store = (row == .stt) ∧ q.csp = x.csp ∧ q.addr = x.region.base + x.off ∧ q.run = x.run ∧ q.planned = x.planned ∧
      q.issue = t ∧ q.bound = n ∧ bound ≤ q.release ∧ (met = false → q.release = bound) ∧ Ordered (d.core c).run ∧
      (d.ctx? s.x.entry.id).map (·.violation) = some (s.x.violation || met) ∧
      (row = .stt → q.data = memBytes s.k.mem.csp (64 * x.csp) x.run) ∧
      (row = .ldt → plan = t → (∀ o ∈ e.inFlight s.x, o.2.store = false) →
        q.data = e.ownerRead s.p.id q.addr x.run)

/-- A transfer's data that lands past its bound moves its release to that ck, and the later ones behind it, on its core and,
behind a store, on the job's other cores; the scratchpad and memory wait for the release (R40, R42, R44, R46). A release
takes the front of the queue: an LDT's data reaches its scratchpad bytes, an STT's its bytes of HBM (R40, R42, R43). -/
def Claims.TransfersLandAndAreReleased : Prop :=
  (∀ (c n ck : Nat) (s : Seat) (q : Transfer) (st : State), c < 6 → dueLand c n ck st.dev = true →
    st.dev.seat c = some s → s.k.run.queue[n]? = some q → Completes (.transferDataLand c n ck) st fun d =>
      (∃ q', (d.core c).run.queue[n]? = some q' ∧ q'.landed = true ∧ max q.release ck ≤ q'.release ∧ q'.data = q.data ∧
        (n = 0 → q.behind = [] → q'.release = max q.release ck)) ∧
      (d.core c).run.queue.length = s.k.run.queue.length ∧ Ordered (d.core c).run ∧
      (∀ o, OnlyReleases (st.dev.core o) (d.core o)) ∧
      (∀ o, o ≠ c → o ∉ s.x.cores → d.core o = st.dev.core o) ∧
      (∀ o, o ≠ c → Ordered (st.dev.core o).run → (∀ l ∈ (st.dev.core o).run.queue, l.behind = []) →
        d.core o = st.dev.core o) ∧ d = { st.dev with cores := d.cores }) ∧
  (∀ (c : Nat) (s : Seat) (q : Transfer) (qs : List Transfer) (st : State), c < 6 → dueRelease c 0 st.dev = true →
    st.dev.seat c = some s → s.k.run.queue = q :: qs → s.x.cores = [c] → (∀ o ∈ qs, q.release < o.release) →
    Completes (.transferRelease c 0) st fun d =>
      (d.core c).run.queue = qs ∧ (d.core c).run.ip = s.k.run.ip ∧ OnlyJobs st.dev d ∧
      (d.ctx? s.x.entry.id).map (·.now) = some q.release ∧
      (q.store = false → (d.core c).mem = { s.k.mem with csp := memWriteBytes s.k.mem.csp (64 * q.csp) q.data } ∧
        d.mem = st.dev.mem) ∧
      (q.store = true → q.data ≠ [] → (d.core c).mem = s.k.mem ∧
        d.mem = (st.dev.ownerWrite s.x.entry.part q.addr q.data).mem))

/-- A core whose stream has run past its end, or whose next instruction is undefined or breaks its region's rules, faults
its job whatever the row (R59, R248, R266, R369): the context is gone, its cores are free and scrubbed, and a host job's
record has the cause. -/
def Claims.FaultingInstructionsTearTheJobDown : Prop :=
  ∀ (row : TileOp) (c ck cause : Nat) (ecc : Ecc) (s : Seat) (st : State), c < 6 → dueTile row c st.dev = true →
    st.dev.seat c = some s →
    (st.dev.nextOf s = .past ck ∧ cause = 3) ∨ (st.dev.nextOf s = .fault ck true ∧ cause = 2) ∨
      (st.dev.nextOf s = .fault ck false ∧ cause = 1) →
    Completes (tileCommand row c ecc) st fun d =>
      d.ctx? s.x.entry.id = none ∧ (∀ k ∈ d.cores, k.job ≠ some s.x.entry.id) ∧
      (∀ o, (st.dev.core o).job = some s.x.entry.id → (d.core o).mem = CoreMem.zero ∧ (d.core o).run = CoreRun.start) ∧
      (∀ tag cq off mu ep, s.x.entry.src = .host tag cq off mu ep → ∃ en : JobEnd,
        d.due = st.dev.due ++ [{ fn := s.x.entry.fn, queue := cq, bytes := jobRecord s.x.entry.id tag en, last := none }] ∧
        0x13 ∈ en.codes ∧ en.cause = cause ∧ en.attempts = s.x.attempt + 1) ∧
      d.charter = st.dev.charter ∧ d.lwd = st.dev.lwd ∧ d.queues = st.dev.queues

/-- An error ECC cannot correct in what an instruction reads is counted, and the job is reissued from its inputs, its cores
fresh (R56, R57, R250). -/
def Claims.UncorrectableReadsReissueTheJob : Prop :=
  ∀ (row : TileOp) (c : Nat) (ecc : Ecc) (st : State) (s : Seat) (w t plan : Nat), ecc.uncorrectable = true →
    row.cls = 1 ∨ row.cls = 2 ∨ row = .stt ∨ row = .shl → Issuing st.dev row c s w t plan → s.x.attempt < 3 →
    s.x.cores.Nodup → c ∈ s.x.cores → Completes (tileCommand row c ecc) st fun d =>
      (∃ y, d.ctx? s.x.entry.id = some y ∧ y.entry = s.x.entry ∧ y.attempt = s.x.attempt + 1 ∧ y.now = 0 ∧
        y.cores = s.x.cores ∧ y.replayCk = 0 ∧ y.adds = []) ∧
      (d.core c).run = CoreRun.start ∧ (d.core c).mem.csp = [] ∧ (d.core c).job = some s.x.entry.id ∧
      (d.core c).uncorrected = satAdd 64 s.k.uncorrected 1

/-- Gates (R36): a core that reaches one holds there, its instruction unretired; when all have and the waymark is satisfied,
the gate opens on every core in the ck after the last arrived, and the slip restarts from the gate's plan. -/
def Obligations.GatesHoldAndOpenTogether : Prop :=
  (∀ (c : Nat) (st : State) (s : Seat) (w t plan e : Nat), Issuing st.dev .gate c s w t plan →
    s.gateFor (bits w 24 16) = some e → Completes (.gate c) st fun d =>
      (d.core c).run.gate = some (e, t) ∧ (d.core c).run.ip = s.k.run.ip ∧ (d.core c).mem = s.k.mem ∧
      (∀ o, o ≠ c → d.core o = (Reached st.dev c t).core o) ∧ OnlyJobs st.dev d ∧
      (∃ y, d.ctx? s.x.entry.id = some y ∧ y.cores = s.x.cores ∧ (y.st = .running ∨ y.st = .blocked))) ∧
  (∀ (j : Nat) (x : Ctx) (st : State), dueGateOpen j st.dev = true → st.dev.ctx? j = some x → x.cores.Nodup →
    x.cores ≠ [] → (∀ c ∈ x.cores, (st.dev.core c).job = some j) → Completes (.gateOpen j) st fun d =>
      let a := (st.dev.runs x).foldl (fun a r => max a ((r.gate.map (·.2)).getD 0)) 0
      (d.ctx? j).map (fun y => (y.st, y.now, y.cores)) = some (.running, a + 1, x.cores) ∧
      (∀ c ∈ x.cores, ∃ g, (st.dev.core c).run.gate = some g ∧
        (d.core c).run.ip = (st.dev.core c).run.ip + 1 ∧ (d.core c).run.last = some (a + 1) ∧
        (d.core c).run.gate = none ∧ (d.core c).run.passed = (st.dev.core c).run.passed ++ [g.1] ∧
        (d.core c).run.slip = a - ((x.mf.gates[g.1]?).map (·.1)).getD 0) ∧
      (∀ c, c ∉ x.cores → d.core c = st.dev.core c) ∧ OnlyJobs st.dev d)

/-- A replay event (R157): the job pauses from the verdicts' ck; its length, 1,040 ck and 8 for each further row-step,
counts against the reserve and in the core's counters. Without room in the reserve the job is reissued, and after three
reissues torn down with cause RETRY_LIMIT (R56, R57). REPLAY_RESUME ends the pause. -/
def Obligations.ReplaysPauseOrReissueTheJob : Prop :=
  (∀ (c : Nat) (f : ResidueFacts) (s : Seat) (st : State), c < 6 → dueReplay c f st.dev = true →
    st.dev.seat c = some s → s.x.injectedAt s.slot (pauseCk f) = [] → (∀ r ∈ f.rows, r.fails = 0) → f.selfTestBad = [] →
    f.uncorrectable = false →
    let e := 1040 + 8 * (f.rows.length - 1)
    let first := (f.rows.head?).getD { row := 0, column := 0, error := 0, fails := 0 }
    (s.x.replayCk + e ≤ s.x.mf.reserve → Completes (.replayEvent c f) st fun d =>
      (∃ y, d.ctx? s.x.entry.id = some y ∧ y.paused = true ∧ y.replayCk = s.x.replayCk + e ∧
        y.now = (if s.x.lane.isSome then s.x.now else f.word + 38) ∧
        y.pauses = s.x.pauses ++ [(f.word + 38, e)] ∧ y.attempt = s.x.attempt ∧ y.cores = s.x.cores) ∧
      (d.core c).residue = satAdd 64 s.k.residue f.rows.length ∧ (d.core c).replays = satAdd 64 s.k.replays 1 ∧
      (d.core c).replayCk = satAdd 64 s.k.replayCk e ∧ (d.core c).run.ip = s.k.run.ip ∧
      (d.core c).lastEvent = { kind := 1, phys := st.dev.physRow c first.row, row := first.row, column := first.column
                               job := s.x.entry.id } ∧
      d.video = st.dev.video ∧ d.queues = st.dev.queues ∧ d.charter = st.dev.charter) ∧
    (s.x.mf.reserve < s.x.replayCk + e → s.x.attempt < 3 → Completes (.replayEvent c f) st fun d =>
      (∃ y, d.ctx? s.x.entry.id = some y ∧ y.entry = s.x.entry ∧ y.paused = false ∧ y.now = 0 ∧ y.replayCk = 0 ∧
        y.attempt = s.x.attempt + 1) ∧
      (c ∈ s.x.cores → s.x.cores.Nodup → (d.core c).run = CoreRun.start ∧ (d.core c).mem.csp = [])) ∧
    (s.x.mf.reserve < s.x.replayCk + e → 3 ≤ s.x.attempt → Completes (.replayEvent c f) st fun d =>
      d.ctx? s.x.entry.id = none ∧ (∀ k ∈ d.cores, k.job ≠ some s.x.entry.id) ∧
      (∀ tag cq off mu ep, s.x.entry.src = .host tag cq off mu ep → ∃ en : JobEnd,
        d.due = st.dev.due ++ [{ fn := s.x.entry.fn, queue := cq, bytes := jobRecord s.x.entry.id tag en, last := none }] ∧
        0x13 ∈ en.codes ∧ en.cause = 5))) ∧
  (∀ (j : Nat) (x : Ctx) (st : State), dueResume j st.dev = true → st.dev.ctx? j = some x → x.lane = none →
    exec (.replayResume j) st = .next (st.withDev (st.dev.modCtx j fun y => { y with paused := false })))

/-- Refresh lulls (R415): one of 120 memory ck, or 180 where a stack of the owner is above 85 °C, and the next point lies
ahead; inside a retraining lull that lull goes on. It ends, and the end touches nothing else. -/
def Claims.RefreshLullsBeginAndEnd : Prop :=
  (∀ (o : Nat) (s : State), o < 6 ∨ o = commonOwner → dueRefresh o s.dev = true → Completes (.refreshLull o) s fun d =>
    let r := s.dev.retrainOf o
    let n := (if s.dev.hot o then 180 else 120) * mkTicks
    s.dev.ticks < (d.retrainOf o).nextRefresh ∧
    (r.lull = .none → (d.retrainOf o).lull = .refresh (s.dev.ticks + n)) ∧
    (∀ u, r.lull = .retrain u ∨ r.lull = .forced u → (d.retrainOf o).lull = r.lull) ∧
    (d.retrainOf o).lastTick = r.lastTick ∧ (d.retrainOf o).pending = r.pending ∧ d.mem.hbm = s.dev.mem.hbm ∧
    d = { s.dev with parts := d.parts, mem := d.mem }) ∧
  (∀ (o u : Nat) (s : State), o < 6 ∨ o = commonOwner → s.dev.mainUp = true → (s.dev.retrainOf o).lull = .refresh u →
    u ≤ s.dev.ticks → Completes (.refreshLullEnd o) s fun d =>
      d.retrainOf o = { s.dev.retrainOf o with lull := .none } ∧ d.mem.hbm = s.dev.mem.hbm ∧
      d = { s.dev with parts := d.parts, mem := d.mem })

/-- Retraining (R416 to R418, R424): it falls due RETRAIN_MS after the last; its lull takes a dispatch gap, repairs up to
four failing rows of the owner, and ends. A forced lull takes a refresh point: it counts, and the transfers in flight on the
owner's cores lose their bound (R46). -/
def Claims.RetrainingLullsRun : Prop :=
  (∀ (o : Nat) (s : State), o < 6 ∨ o = commonOwner → dueRetrainDue o s.dev = true → Completes (.retrainDue o) s fun d =>
    d.retrainOf o = { s.dev.retrainOf o with pending := true } ∧ d.mem.hbm = s.dev.mem.hbm ∧
    d = { s.dev with parts := d.parts, mem := d.mem }) ∧
  (∀ (o : Nat) (s : State), o < 6 ∨ o = commonOwner → dueRetrainLull o s.dev = true →
    let taken := (s.dev.mem.failing.filter fun r => (s.dev.pcs o).contains r.1).take 4
    Completes (.retrainLull o) s fun d =>
      d.retrainOf o = { s.dev.retrainOf o with lull := .retrain (s.dev.ticks + retrainTicks), lastTick := s.dev.ticks
                                               pending := false } ∧
      (∀ r, r ∈ d.mem.failing ↔ r ∈ s.dev.mem.failing ∧ r ∉ taken) ∧
      d.ctxs = s.dev.ctxs ∧ d.cores = s.dev.cores ∧ d.video = s.dev.video ∧ d.queues = s.dev.queues) ∧
  (∀ (o : Nat) (s : State), o < 6 ∨ o = commonOwner → dueForced o s.dev = true → Completes (.forcedLull o) s fun d =>
    (d.retrainOf o).lull = .forced (s.dev.ticks + retrainTicks) ∧ (d.retrainOf o).lastTick = s.dev.ticks ∧
    (d.retrainOf o).pending = false ∧ s.dev.ticks < (d.retrainOf o).nextRefresh ∧ d.ctxs = s.dev.ctxs ∧
    (∀ p, o ≠ commonOwner → s.dev.part? o = some p → (d.part? o).map (·.forced) = some (satAdd 64 p.forced 1) ∧
      (∀ c ∈ p.cores, c < s.dev.cores.length → ∀ q ∈ (d.core c).run.queue, q.landed = false ∧ q.late = 8) ∧
      ((∀ x ∈ s.dev.ctxs, x.entry.part = o → ∀ c ∈ x.cores, c ∈ p.cores) → ∀ c, c ∉ p.cores →
        d.core c = s.dev.core c)) ∧
    (o = commonOwner → d.cores = s.dev.cores)) ∧
  (∀ (o u : Nat) (s : State), o < 6 ∨ o = commonOwner → s.dev.mainUp = true →
    (s.dev.retrainOf o).lull = .retrain u ∨ (s.dev.retrainOf o).lull = .forced u → u ≤ s.dev.ticks →
    Completes (.lullEnd o) s fun d => d.retrainOf o = { s.dev.retrainOf o with lull := .none } ∧
      d.mem.hbm = s.dev.mem.hbm ∧ d = { s.dev with parts := d.parts, mem := d.mem } ∧
      (∀ j js, o = commonOwner → s.dev.mem.laneBusy = none → s.dev.mem.laneQueue = j :: js →
        d.mem.laneBusy = some j ∧ d.mem.laneStart = s.dev.ticks ∧ d.mem.laneQueue = js))

/-- Migration (R425): a channel that needs one is copied to the first spare, and with none left its stack is degraded; the
end of the copy waits for the owner's next retraining lull. -/
def Claims.MigrationsCopyToASpare : Prop :=
  (∀ (ch : Nat) (bad : Bool) (s : State), ch < 128 → dueMigration ch bad s.dev = true → s.dev.mem.mcs.length = 8 →
    Completes (.migrationStart ch bad) s fun d =>
      (∀ sp rest, s.dev.mem.spares = sp :: rest →
        d.mem.migration = some { src := ch, dst := sp, startTick := s.dev.run, copied := false } ∧ d.mem.spares = rest ∧
        d.mem.mcs = s.dev.mem.mcs) ∧
      (s.dev.mem.spares = [] → d.mem.migration = none ∧ (d.mem.mcs[ch / 16]?).map (·.degraded) = some true) ∧
      d.mem.lists = s.dev.mem.lists ∧ d.ctxs = s.dev.ctxs ∧ d.cores = s.dev.cores) ∧
  (∀ (g : Migration) (s : State), s.dev.mainUp = true → s.dev.mem.migration = some g → g.copied = false →
    g.startTick + copyTicks ≤ s.dev.run → exec .migrationCopyDone s = .next (s.withDev { s.dev with
      mem := { s.dev.mem with migration := some { g with copied := true } } }))

/-- A switch to a spare keeps what every owner reads (R425): each byte of every owner's space is where its list, as
switched, says it is. -/
def Claims.SwitchedChannelsKeepTheirContents : Prop :=
  ∀ (d : Dev) (o : Nat) (g : Migration), d.mem.migration = some g → g.copied = true →
    (d.pcs o).any (fun pc => pc / 2 == g.src) = true → memWf d.mem.hbm = true → g.src ≠ g.dst →
    (∀ l ∈ d.mem.lists, ∀ pc ∈ l.2, pc / 2 ≠ g.dst) → g.src < 128 → g.dst < 128 →
    (d.switchChannel o).mem.migration = none ∧ memWf (d.switchChannel o).mem.hbm = true ∧
    ∀ q a n, (d.switchChannel o).ownerRead q a n = d.ownerRead q a n

/-- Reads of HBM that met an error (R420, R421, R423): a corrected one counts, and the data is exact; one recovered by retry
counts and its row fails; a retried transfer that lands past its release is released then; a lost line tears its transfer's
job down with cause 8, answers a BAR2 read with an abort, and conceals the picture a frame line was read for. -/
def Obligations.MemoryErrorsReachTheirReader : Prop :=
  (∀ (pc a : Nat) (s : State), isLine pc a = true → s.dev.mainUp = true →
    exec (.patrolScrub pc a none) s = .next (s.withDev s.dev)) ∧
  (∀ (pc a : Nat) (r : Reader) (s : State), dueRetry pc a .corrected r s.dev = true → s.dev.mem.mcs.length = 8 →
    Completes (.hbmReadRetry pc a .corrected r) s fun d =>
      (d.mem.mcs[pc / 32]?).map (·.corrected) = (s.dev.mem.mcs[pc / 32]?).map (fun m => satAdd 64 m.corrected 1) ∧
      d.mem.hbm = s.dev.mem.hbm ∧ d = { s.dev with mem := d.mem }) ∧
  (∀ (pc a : Nat) (s : State), isLine pc a = true → s.dev.mainUp = true → s.dev.mem.mcs.length = 8 →
    (Completes (.patrolScrub pc a (some .corrected)) s fun d =>
      (d.mem.mcs[pc / 32]?).map (·.corrected) = (s.dev.mem.mcs[pc / 32]?).map (fun m => satAdd 64 m.corrected 1) ∧
      d.mem.hbm = s.dev.mem.hbm ∧ d = { s.dev with mem := d.mem }) ∧
    (∀ n ck, Completes (.patrolScrub pc a (some (.retried n ck))) s fun d =>
      (d.mem.mcs[pc / 32]?).map (fun m => (m.retried, m.lastError)) =
        (s.dev.mem.mcs[pc / 32]?).map (fun m => (satAdd 64 m.retried 1, lastError pc a false)) ∧
      (pc, (bankOf a).1, (bankOf a).2.1) ∈ d.mem.failing ∧ d.mem.hbm = s.dev.mem.hbm ∧ d = { s.dev with mem := d.mem }) ∧
    (Completes (.patrolScrub pc a (some .lost)) s fun d =>
      (d.mem.mcs[pc / 32]?).map (fun m => (m.lost, m.lastError)) =
        (s.dev.mem.mcs[pc / 32]?).map (fun m => (satAdd 64 m.lost 1, lastError pc a true)) ∧
      (pc, (bankOf a).1, (bankOf a).2.1) ∈ d.mem.failing ∧ d.ctxs = s.dev.ctxs ∧ d.cores = s.dev.cores ∧
      d.video = s.dev.video ∧ d.parts = s.dev.parts)) ∧
  (∀ (pc a tries ck c : Nat) (x : Seat) (q : Transfer) (s : State),
    dueRetry pc a (.retried tries ck) (.transfer c 0) s.dev = true → s.dev.loadAt c 0 = some (x, q) → q.release < ck →
    q.behind = [] → Completes (.hbmReadRetry pc a (.retried tries ck) (.transfer c 0)) s fun d =>
      ((d.core c).run.queue[0]?).map (fun o => (o.release, o.late, o.landed)) =
        some (ck, if q.late = 8 then 8 else 9, true) ∧
      d.ctxs = s.dev.ctxs ∧ (∀ o, o ≠ c → o ∉ x.x.cores → d.core o = s.dev.core o) ∧
      ∀ o, o ≠ c → OnlyReleases (s.dev.core o) (d.core o)) ∧
  (∀ (pc a c n : Nat) (x : Seat) (q : Transfer) (s : State), dueRetry pc a .lost (.transfer c n) s.dev = true →
    s.dev.loadAt c n = some (x, q) → Completes (.hbmReadRetry pc a .lost (.transfer c n)) s fun d =>
      d.ctx? x.x.entry.id = none ∧ (∀ k ∈ d.cores, k.job ≠ some x.x.entry.id) ∧
      (∀ tag cq off mu ep, x.x.entry.src = .host tag cq off mu ep → ∃ en : JobEnd,
        d.due = s.dev.due ++ [{ fn := x.x.entry.fn, queue := cq, bytes := jobRecord x.x.entry.id tag en, last := none }] ∧
        0x13 ∈ en.codes ∧ en.cause = 8)) ∧
  (∀ (pc a f b n : Nat) (s : State), dueRetry pc a .lost (.bar2 f b n) s.dev = true →
    Completes (.hbmReadRetry pc a .lost (.bar2 f b n)) s fun d => d.bus.getLast? = some (.abort f) ∧
      d.ctxs = s.dev.ctxs ∧ d.cores = s.dev.cores) ∧
  (∀ (pc a cls b off n k : Nat) (p : Pic) (s : State), dueRetry pc a .lost (.frame cls b off n k) s.dev = true →
    s.dev.pic? n k = some p → Completes (.hbmReadRetry pc a .lost (.frame cls b off n k)) s fun d =>
      (d.pic? n k).map (·.conditions) = some ((p.conditions ++ [1]).eraseDups) ∧ d.ctxs = s.dev.ctxs ∧
      d.cores = s.dev.cores)

/-- The audit unit (R332, R334 to R337, R342): ARM and FIRE by a write of its control register; a fire drives the pulse out;
a pulse takes an armed epoch to its start point and clears ARM, one without is missed, and one within 100 ns of the last is
ignored; it is sampled at most SAMPLE_EDGES reference periods after it left; a reported mismatch counts. The oldest waybill
entry that waits is signed and written to its place. -/
def Claims.MusterAndSigningActOnTheAuditUnit : Prop :=
  (∀ (v : Reg) (s : State), s.dev.serves 0 .rest = true → Completes (.musterArm v) s fun d =>
    d.dau.ctl &&& musterMask = v.toNat &&& musterMask ∧
    bitAt d.dau.ctl 2 = ((bitAt v.toNat 2 || bitAt s.dev.dau.ctl 2) && bitAt v.toNat 1) ∧
    d.dau.armTick = (if bitAt v.toNat 0 then s.dev.ticks else s.dev.dau.armTick) ∧
    d = { s.dev.wakeLink with dau := { s.dev.dau with ctl := d.dau.ctl, armTick := d.dau.armTick } }) ∧
  (∀ s : State, dueFire s.dev = true → Completes .musterFire s fun d =>
    d.bus = s.dev.bus ++ [.musterOut] ∧ bitAt d.dau.ctl 2 = false ∧ d.dau.ctl + 4 = s.dev.dau.ctl ∧
    d = { s.dev with bus := d.bus, link := d.link, dau := { s.dev.dau with ctl := d.dau.ctl } }) ∧
  (∀ (a p : Nat) (s : State), s.dev.mainUp = true → s.dev.clk.refPresent = true →
    let u := s.dev.dau
    let edges := bits u.ctl 3 3
    a ≤ 10000 * (if 1 ≤ edges ∧ edges ≤ 4 then edges else 1) →
    (u.ignores s.dev.ticks = true → exec (.musterPulse a p) s = .next (s.withDev s.dev)) ∧
    (u.ignores s.dev.ticks = false → Completes (.musterPulse a p) s fun d =>
      d = { s.dev with dau := d.dau, fresh := d.fresh } ∧ d.dau.lastPulse = some s.dev.ticks ∧
      d.dau.marginLow = (u.marginLow || decide (a < 2000)) ∧
      (bitAt u.ctl 0 = true → u.armTick + 52 ≤ s.dev.ticks → d.dau.epoch = bits u.ctl 32 32 ∧
        d.dau.startTick = some (s.dev.ticks + 2 * max 2048 (bits u.ctl 8 24)) ∧
        d.dau.startCk = some (s.dev.coreRun + 128 * max 2048 (bits u.ctl 8 24)) ∧ bitAt d.dau.ctl 0 = false ∧
        d.dau.missed = u.missed) ∧
      (bitAt u.ctl 0 = false ∨ s.dev.ticks < u.armTick + 52 → d.dau.missed = true ∧ d.dau.epoch = u.epoch ∧
        d.dau.startTick = u.startTick ∧ d.dau.startCk = u.startCk ∧ d.dau.ctl = u.ctl))) ∧
  (∀ (v : Reg) (s : State), s.dev.serves 0 .rest = true → Completes (.mismatchReport v) s fun d =>
    d.dau = { s.dev.dau with mismatches := satAdd 64 s.dev.dau.mismatches 1 } ∧ d.ctxs = s.dev.ctxs ∧
    d.cores = s.dev.cores ∧ d.parts = s.dev.parts ∧ d.charter = s.dev.charter) ∧
  (∀ (r : SignReq) (rs : List SignReq) (p : Part) (a : Nat) (s : State), dueSigned s.dev = true →
    s.dev.dau.signQueue = r :: rs → s.dev.part? r.part = some p →
    ringSlot p.wbRing 4 16 1024 p.granted r.seq = some a → Completes .waybillSigned s fun d =>
      d.dau = { s.dev.dau with signQueue := rs } ∧
      d.mem = (s.dev.ownerWrite p.id a (wbBody r.addr r.seq 1 (sha384 r.body) r.body
        (ecdsaSign (akOf ((s.dev.sec.running.map (·.hash)).getD [])) r.body))).mem ∧
      d.ctxs = s.dev.ctxs ∧ d.cores = s.dev.cores ∧ d.queues = s.dev.queues)

/-! ### Video -/

/-- The stream commands (R65, R67, R89, R94): OPEN's checks in their order, with the result of the first that fails; an OPEN
that passes them holds its entry's configuration and its reservation, and CLOSE and CLEAR_HEAVY act on an open stream alone.
-/
def Claims.StreamCommandsAnswerByState : Prop :=
  ∀ (f n tag : Nat) (s : State), f < 7 → n < 16384 → s.dev.serves f .rest = true → Busy s.dev f .stream = false →
    let takes := fun (k : Dev → Dev) => Host.Outcome.next (s.withDev (Taken s.dev.wakeLink f .stream 50 k))
    let ends := fun (res : Nat) => takes fun d => d.streamEnds f n (tag % 256) res
    let off := s.dev.streamEntry f n
    let e := s.dev.commonRead f off 128
    let good := off + 128 ≤ (s.dev.commonGrant f).2 ∧ streamCfgOk e = true
    let new := mkStream f n e (s.dev.firstSerial n)
    let owns := s.dev.ownsStream f n = true
    let routesOk := ∀ q ∈ new.slots, ∃ r, s.dev.route? q.2 = some r ∧ r.sequence = false ∧
      (r.redact = true → ∀ o ∈ s.dev.video.streams, ∀ p ∈ o.slots, p.2 ≠ q.2)
    let open_ := exec (.streamOpen f n tag) s
    (s.dev.sealed = false → open_ = ends 4) ∧
    (¬owns → exec (.streamClose f n tag) s = ends 3 ∧ exec (.clearHeavy f n tag) s = ends 3) ∧
    (s.dev.sealed = true → ¬owns → open_ = ends 3) ∧
    (s.dev.sealed = true → owns → (s.dev.stream? n).isSome = true → open_ = ends 4) ∧
    (s.dev.sealed = true → owns → s.dev.stream? n = none → (¬good → open_ = ends 1) ∧
      (good → (∃ q ∈ new.slots, s.dev.ownsRoute f q.2 = false) → open_ = ends 3) ∧
      (good → (∀ q ∈ new.slots, s.dev.ownsRoute f q.2 = true) → (¬routesOk → open_ = ends 4) ∧
        (routesOk → smallestClass new.bufBytes s.dev.depots = none → open_ = ends 2) ∧
        (∀ x, routesOk → smallestClass new.bufBytes s.dev.depots = some x →
          (x.canReserve (new.maxRefs + 2) = false → open_ = ends 2) ∧
          (x.canReserve (new.maxRefs + 2) = true → Completes (.streamOpen f n tag) s fun d =>
            d.stream? n = some { new with cls := x.id } ∧ (∀ m, m ≠ n → d.stream? m = s.dev.stream? m) ∧
            (s.dev.depot? x.id = some x → (d.depot? x.id).map (·.res) =
              some (x.res.filter (·.1 != n) ++ [(n, new.maxRefs + 2)])) ∧
            (f < s.dev.fns.length → (d.fn f).streamSts.result = 0) ∧ d.ctxs = s.dev.ctxs ∧ d.cores = s.dev.cores)))) ∧
    (owns → s.dev.stream? n = none → exec (.streamClose f n tag) s = ends 4 ∧ exec (.clearHeavy f n tag) s = ends 4) ∧
    (∀ x, owns → s.dev.stream? n = some x →
      (x.closing = true → exec (.streamClose f n tag) s = ends 4) ∧
      (x.closing = false → exec (.streamClose f n tag) s = takes fun d =>
        (d.modStream n fun x => { x with closing := true }).streamEnds f n (tag % 256) 0) ∧
      Completes (.clearHeavy f n tag) s fun d => d.stream? n = some { x with heavy := false } ∧
        (∀ m, m ≠ n → d.stream? m = s.dev.stream? m) ∧ (f < s.dev.fns.length → (d.fn f).streamSts.result = 0))

/-- The end of a CLOSE (R67, R284, R313): the stream is gone with its track sets, its buffers keep no mark of it but their
readers', and its zones are no longer observed. A read of VDEC_HEAVY_LOG takes the oldest notice (R95), by halves with its
second half (R11). -/
def Claims.StreamsEndAndHeavyLogsAreRead : Prop :=
  (∀ (n : Nat) (x : Stream) (s : State), n < 16384 → s.dev.mainUp = true → s.dev.stream? n = some x → x.closing = true →
    s.dev.streamSpent x = true → Completes (.streamCloseComplete n) s fun d =>
      d.stream? n = none ∧ (∀ m, m ≠ n → d.stream? m = s.dev.stream? m) ∧ (∀ t ∈ d.trk.sets, t.stream ≠ n) ∧
      (∀ f ∈ d.video.frames, f.stream = n → f.refShort = false ∧ f.refLong = false ∧ f.outputWait = 0 ∧
        f.lastOutput = false ∧ f.cacheUntil = none) ∧
      (∀ z ∈ (s.dev.charter.cur.map (·.zones)).getD [], z.stream = n →
        ∃ v ∈ d.trk.verdicts, v.zone = z.id ∧ v.lost = true ∧ v.clear = false) ∧
      (∀ c ∈ d.video.clips, c.stream = n → c.ended.isSome = true) ∧ d.charter = s.dev.charter) ∧
  (∀ (f : Nat) (s : State), f < 7 → f < s.dev.fns.length → s.dev.serves f .rest = true →
    let ov := b2n (s.dev.fn f).heavyOverflow * 2 ^ 62
    (∀ h hs, (s.dev.fn f).heavy = h :: hs →
      let word := h.stream + h.count * 2 ^ 32 + ov + 2 ^ 63
      ((s.dev.fn f).heavyRead = none → Completes (.heavyLogRead f .low) s fun d =>
        (d.fn f).heavy = h :: hs ∧ (d.fn f).heavyRead = some .low ∧ (d.fn f).heavyOverflow = (s.dev.fn f).heavyOverflow ∧
        d.bus = s.dev.bus ++ [.data f (le 4 word)] ∧ d = { s.dev with fns := d.fns, bus := d.bus, link := d.link }) ∧
      ((s.dev.fn f).heavyRead = some .low → Completes (.heavyLogRead f .high) s fun d =>
        (d.fn f).heavy = hs ∧ (d.fn f).heavyRead = none ∧ (d.fn f).heavyOverflow = false ∧
        d.bus = s.dev.bus ++ [.data f (le 4 (word / 2 ^ 32))] ∧
        d = { s.dev with fns := d.fns, bus := d.bus, link := d.link })) ∧
    ((s.dev.fn f).heavyRead = none → Completes (.heavyLogRead f .full) s fun d =>
      (∀ h hs, (s.dev.fn f).heavy = h :: hs → (d.fn f).heavy = hs ∧ d.bus = s.dev.bus ++
        [.data f (le 8 (h.stream + h.count * 2 ^ 32 + ov + 2 ^ 63))]) ∧
      ((s.dev.fn f).heavy = [] → (d.fn f).heavy = [] ∧ d.bus = s.dev.bus ++ [.data f (le 8 ov)]) ∧
      (d.fn f).heavyOverflow = false ∧ (∀ g, g ≠ f → d.fn g = s.dev.fn g) ∧
      d = { s.dev with fns := d.fns, bus := d.bus, link := d.link }))

/-- From chunk to ready picture (R69 to R71, R79): each frame of a chunk that is whole in the device becomes a fetched
picture with what its headers say, DISCONTINUITY before the first and END_OF_STREAM after the last, and the chunks after it
keep their place in decode order; on its turn a picture becomes ready, a skipped one counts, a lost one goes to the copier
with its condition, one that shows a held frame takes its buffer, and END_OF_STREAM without a picture flushes those up to
it. -/
def Claims.ChunksBecomePictures : Prop :=
  (∀ (n k : Nat) (fs : List UnitFacts) (x : Stream) (p : Pic) (s : State), n < 16384 → dueChunk n k fs s.dev = true →
    s.dev.stream? n = some x → x.pic? k = some p → InDecodeOrder x → Completes (.chunkFetched n k fs) s fun d =>
      (∀ i f, fs[i]? = some f → ∃ q, d.pic? n (k + i) = some q ∧
        bitAt q.flags 0 = (bitAt p.flags 0 && i == 0) ∧ bitAt q.flags 1 = (bitAt p.flags 1 && i + 1 == fs.length) ∧
        q = { p with serial := k + i, flags := q.flags, phase := .fetched, begun := true, facts := some f
                     fetchedVk := vkNow s.dev, shown := !(f.parses && f.hidden) }) ∧
      (∀ j, j < k → d.pic? n j = s.dev.pic? n j) ∧
      (∀ j, k < j → d.pic? n (j + (fs.length - 1)) =
        (s.dev.pic? n j).map fun q => { q with serial := j + (fs.length - 1) }) ∧
      (∀ y, d.stream? n = some y → InDecodeOrder y) ∧ (∀ m, m ≠ n → d.stream? m = s.dev.stream? m) ∧
      d = { s.dev with video := d.video }) ∧
  (∀ (d : Dev) (n q : Nat) (b : List Byte) (x y : Stream), d.stream? n = some x → InDecodeOrder x →
    (d.addChunk n q b).stream? n = some y → InDecodeOrder y ∧
      y.pics.map (·.serial) = x.pics.map (·.serial) ++ [x.nextSerial]) ∧
  (∀ (n k : Nat) (x : Stream) (p : Pic) (s : State), n < 16384 → duePicReady n k s.dev = true →
    s.dev.stream? n = some x → s.dev.pic? n k = some p → bitAt p.flags 0 = false →
    (p.endOnly = true → Completes (.pictureReady n k) s fun d =>
      (d.stream? n).map (·.flushTo) = some (max x.flushTo (k + 1)) ∧ d.video.vdec = s.dev.video.vdec) ∧
    (p.endOnly = false → p.facts = none → Completes (.pictureReady n k) s fun d =>
      (∃ q, d.pic? n k = some q ∧ q.phase = .copying ∧ q.conditions = [0x24] ∧ q.buf.isSome = true) ∧
      (n, k) ∈ d.video.copier ∧ d.video.vdec = s.dev.video.vdec) ∧
    (∀ f fr, p.endOnly = false → p.facts = some f → f.parses = true → f.showExisting = true → p.shown = true →
      s.dev.refFrame x ((f.refs.head?).getD 8) = some fr → Completes (.pictureReady n k) s fun d =>
        (∃ q, d.pic? n k = some q ∧ q.phase = .decoded ∧ q.buf = some fr.ix ∧ q.noDecode = true ∧ q.subst = none) ∧
        d.video.vdec = s.dev.video.vdec ∧ d.video.copier = s.dev.video.copier) ∧
    (∀ f, p.endOnly = false → p.facts = some f → (f.parses && f.showExisting) = false → s.dev.skips x p = true →
      Completes (.pictureReady n k) s fun d => (d.stream? n).map (·.skipped) = some (satAdd 32 x.skipped 1) ∧
        d.video.vdec = s.dev.video.vdec ∧ d.video.copier = s.dev.video.copier) ∧
    (∀ f, p.endOnly = false → p.facts = some f → (f.parses && f.showExisting) = false → s.dev.skips x p = false →
      Completes (.pictureReady n k) s fun d =>
        (d.pic? n k).map (fun q => (q.phase, q.width, q.height)) = some (.ready, f.width, f.height) ∧
        d.video.vdec = s.dev.video.vdec ∧ d.video.frames = s.dev.video.frames ∧ d.depots = s.dev.depots))

/-- Decode (R72, R77, R80, R83, R86, R88, R89): the lowest free engine takes the ready picture with the earliest deadline,
or refuses one whose parameter set fails; a picture past its budget counts once; one decoded whole carries no condition, one
with a tool outside R61 goes to the copier, one that reaches its limit frees its engine, makes its stream heavy and goes to
the copier, and the copier finishes its pictures in order. -/
def Claims.EnginesDecodeAndConceal : Prop :=
  (∀ (e n k dl : Nat) (x : Stream) (p : Pic) (s : State), e < 8 → dueDecodeStart e s.dev = true →
    earliest s.dev.readySet = some (n, k, dl) → s.dev.stream? n = some x → s.dev.pic? n k = some p → p.phase = .ready →
    s.dev.canTarget x = true →
    ((p.facts.any fun f => f.parses && !dimsOk x k f) = true → Completes (.decodeStart e) s fun d =>
      d.video.vdec = s.dev.video.vdec ∧
      (d.stream? n).map (fun y => (y.refused, y.refusing)) = some (satAdd 32 x.refused 1, true)) ∧
    ((p.facts.any fun f => f.parses && !dimsOk x k f) = false → Completes (.decodeStart e) s fun d =>
      (∃ q, d.pic? n k = some q ∧ q.phase = .decoding e (vkNow s.dev) ∧ q.buf.isSome = true ∧ q.engine = e) ∧
      (d.video.vdec[e]?).bind (·.job) = some (n, k) ∧ ∀ o, o ≠ e → d.video.vdec[o]? = s.dev.video.vdec[o]?)) ∧
  (∀ (e t : Nat) (x : Stream) (p : Pic) (s : State), e < 8 → dueBudget e s.dev = true →
    s.dev.inDecode e = some (x, p, t) → Completes (.budgetPassed e) s fun d =>
      (d.pic? x.id p.serial).map (·.overBudget) = some true ∧
      (d.stream? x.id).map (·.overBudget) = some (satAdd 32 x.overBudget 1) ∧ d.video.vdec = s.dev.video.vdec ∧
      d.fns = s.dev.fns ∧ d.ctxs = s.dev.ctxs) ∧
  (∀ (e t ix : Nat) (x : Stream) (p : Pic) (f : UnitFacts) (g : DecodeFacts) (s : State), e < 8 →
    dueDecodeComplete e g s.dev = true → s.dev.inDecode e = some (x, p, t) → p.facts = some f → p.buf = some ix →
    (s.dev.depot? (videoDepot x.cls)).isSome = true → Completes (.decodeComplete e g) s fun d =>
      (∀ v, s.dev.video.vdec[e]? = some v → d.video.vdec[e]? =
        some { v with job := none, decodeVk := g.vk, busyVk := satAdd 64 v.busyVk g.vk }) ∧
      (d.stream? x.id).map (·.overBudget) =
        some (if x.budget ≤ g.vk ∧ p.overBudget = false then satAdd 32 x.overBudget 1 else x.overBudget) ∧
      (x.beyond f = true → ∃ q, d.pic? x.id p.serial = some q ∧ q.phase = .copying ∧ 0x25 ∈ q.conditions) ∧
      (x.beyond f = false → p.shown = true → ∃ q, d.pic? x.id p.serial = some q ∧ q.phase = .decoded ∧
        q.decodeVk = g.vk ∧ (f.parses = true → x.clean f = true → g.corrupt = false → g.concealed = [] → g.uncovered = [] →
          p.cut = none → q.conditions = [] ∧ q.taint = none ∧ q.concealKind = 0))) ∧
  (∀ (n k off cu cov e t : Nat) (h c : Bool) (x : Stream) (p : Pic) (s : State), n < 16384 →
    dueAbandon n k off cu cov h s.dev = true → s.dev.stream? n = some x → s.dev.pic? n k = some p →
    p.phase = .decoding e t → Completes (.pictureAbandon n k off ⟨cu, cov⟩ h c) s fun d =>
      (∃ q, d.pic? n k = some q ∧ q.phase = .copying ∧ 0x21 ∈ q.conditions ∧ q.decodeVk = x.limit ∧
        q.byteOffset = off ∧ q.cuAddr = cu ∧ (c = true ∨ p.cut.isSome = true → 0x24 ∈ q.conditions)) ∧
      (d.stream? n).map (fun y => (y.heavy, y.abandoned, y.overBudget)) =
        some (true, satAdd 32 x.abandoned 1, if p.overBudget then x.overBudget - 1 else x.overBudget) ∧
      (n, k) ∈ d.video.copier ∧
      (∀ v, s.dev.video.vdec[e]? = some v → (d.video.vdec[e]?).map (·.job) = some none)) ∧
  (∀ (n k : Nat) (rest : List (Nat × Nat)) (s : State), dueCopyDone s.dev = true → s.dev.video.copier = (n, k) :: rest →
    Completes .concealCopyDone s fun d => d.video.copier = rest ∧
      ∀ p, s.dev.pic? n k = some p → p.shown = true → ∃ q, d.pic? n k = some q ∧ q.phase = .decoded)

/-- A picture goes forward (R27, R78, R132): it takes its stream's next number, a record is due on each used slot, and each
route gets a pass of it, or an outcome at once where it delivers no samples. A cache hold goes with its time-to-live, and
with it a buffer that has no other mark (R26, R77). -/
def Claims.PicturesGoForward : Prop :=
  (∀ (n : Nat) (x : Stream) (p : Pic) (s : State), n < 16384 → s.dev.mainUp = true → s.dev.stream? n = some x →
    s.dev.nextForward x = some p → Completes (.pictureGoForward n) s fun d =>
      (d.stream? n).map (·.nextPicture) = some ((x.nextPicture + 1) % 2 ^ 32) ∧
      (x.slots ≠ [] → ∃ q, d.pic? n p.serial = some q ∧ q.phase = .gone ∧ q.number = some x.nextPicture ∧
        q.recordsDue = x.slots.map (·.1)) ∧
      (p.delivers = true → p.buf.isSome = true → d.trk.results = s.dev.trk.results ∧
        ∃ new, d.video.passes = s.dev.video.passes ++ new ∧
          new.map (fun y => (y.slot, y.route)) = x.slots ∧ ∀ y ∈ new, y.stream = x.id ∧ y.serial = p.serial ∧ y.unit = none) ∧
      (p.delivers = false → d.video.passes = s.dev.video.passes ∧ ∃ new, d.trk.results = s.dev.trk.results ++ new ∧
        new.map (fun y => (y.slot, y.route)) = x.slots)) ∧
  (∀ (cls b : Nat) (f : Frame) (s : State), cls < 8 → dueTtl cls b s.dev = true → s.dev.video.frame? cls b = some f →
    Completes (.cacheTtlExpire cls b) s fun d =>
      (f.idle = true → s.dev.video.isTarget f = false → d.video.frame? cls b = none) ∧
      (∀ g, d.video.frame? cls b = some g → g.cacheUntil = none) ∧ d.video.vdec = s.dev.video.vdec ∧
      d.video.passes = s.dev.video.passes)

/-- Clip commands (R102, R103, R104, R121, R355): START's refusals by their result; a START that passes opens a clip with
the entry's configuration, nothing coded, its first picture named; STOP of a route with no open clip is refused, and
otherwise names the last picture or ends the clip. -/
def Claims.ClipCommandsAnswerByState : Prop :=
  ∀ (f r pic tag : Nat) (s : State), f < 7 → r < 65536 → s.dev.serves f .rest = true → Busy s.dev f .clip = false →
    let ends := fun (res : Nat) => Host.Outcome.next (s.withDev
      (Taken s.dev.wakeLink f .clip 50 fun d => d.clipEnds f r (tag % 256) res))
    let start := exec (.clipStart f r pic tag) s
    let owns := s.dev.ownsRoute f r = true
    (s.dev.sealed = false → start = ends 4) ∧
    (s.dev.sealed = true → ¬owns → start = ends 3) ∧
    (¬owns → exec (.clipStop f r pic tag) s = ends 3) ∧
    (owns → s.dev.route? r = none → start = ends 4) ∧
    (∀ x, owns → s.dev.route? r = some x → x.redact = false → start = ends 1) ∧
    (∀ x st, owns → s.dev.route? r = some x → x.redact = true →
      s.dev.video.streams.find? (fun y => y.slots.any fun q => q.2 == r) = some st →
      let off := (s.dev.fn f).vencBase + 64 * at_ x.desc 8 2
      let e := s.dev.commonRead f off 64
      let good := off + 64 ≤ (s.dev.commonGrant f).2 ∧ ctxFieldsOk e = true ∧ ctxRatesOk e st.maxW st.maxH = true ∧
        s.dev.evPairOk f (at_ e 0x2C 4 % 2 ^ 20) = true ∧ st.maxDepth ≤ codecDepth e
      let eng := if (s.dev.video.clipsOn 1).length < (s.dev.video.clipsOn 0).length then 1 else 0
      let blocks := reconBlocks e st + ceilDiv (stagingBytes e) 65536
      let room := ∃ y, s.dev.depot? encodeDepot = some y ∧ y.canReserve blocks = true ∧ y.h2 = false ∧ y.rebuild = false
      ((s.dev.openClip r).isSome = true → start = ends 4) ∧
      (s.dev.openClip r = none → ¬good → start = ends 1) ∧
      (s.dev.openClip r = none → good → s.dev.engineRoom eng e st = false ∨ ¬room → start = ends 2) ∧
      (s.dev.openClip r = none → good → s.dev.engineRoom eng e st = true → room →
        Completes (.clipStart f r pic tag) s fun d => ∃ c, d.openClip r = some c ∧ c.fn = f ∧ c.stream = st.id ∧
          c.engine = eng ∧ c.cfg = e ∧ c.n = 0 ∧ c.fullness = at_ e 0x14 4 ∧ c.coding = none ∧ c.stopAt = none ∧
          (f < s.dev.fns.length → (d.fn f).clipSts.result = 0 ∧ (d.fn f).clipSts.b = eng))) ∧
    (owns → s.dev.openClip r = none → exec (.clipStop f r pic tag) s = ends 4) ∧
    (∀ c, owns → s.dev.openClip r = some c → (s.dev.stream? c.stream).isSome = true →
      Completes (.clipStop f r pic tag) s fun d =>
        (∀ c', d.clip? c.id = some c' → c'.stopAt.isSome = true ∨ c'.ended.isSome = true) ∧
        (f < s.dev.fns.length → (d.fn f).clipSts.result = 0) ∧ d.ctxs = s.dev.ctxs)

/-- Encode (R104, R105, R109, R113, R115, R117): an engine takes the oldest ready picture of its clips; a coded picture
frees it and moves the clip's count and receiver fullness, and never takes more bits than the fullness where the reserve
fits in it; a picture that staging cannot hold ends the clip with reason 2. A posted evidence buffer takes the staged data
with its record; one too short is consumed unused. -/
def Claims.EncodersCodeAndWriteEvidence : Prop :=
  (∀ (e k t : Nat) (c : Clip) (s : State), e < 2 → dueEncodeStart e s.dev = true →
    earliestReady (s.dev.video.clipsOn e) = some (c, k, t) → s.dev.clip? c.id = some c →
    Completes (.encodeStart e) s fun d =>
      (d.video.venc[e]?).map (fun v => (v.job, v.lastRoute, v.startTick)) = some (some (c.id, k), c.route, s.dev.run) ∧
      d.clip? c.id = some { c with queue := c.queue.drop 1, coding := some k } ∧
      (∀ o, o ≠ e → d.video.venc[o]? = s.dev.video.venc[o]?) ∧ d = { s.dev with video := d.video }) ∧
  (∀ (e : Nat) (v : VencEngine) (c : Clip) (x : Stream) (p : Pic) (s : State), e < 2 →
    dueEncodeComplete e p.serial s.dev = true → s.dev.inCoding e = some (c, x, p) → s.dev.video.venc[e]? = some v →
    Completes (.encodeComplete e p.serial) s fun d =>
      let m := c.mode p
      let i := c.codeIn p v.luma v.chroma
      let r := codePicture c i
      let size := (c.bytes i r).length
      let full := c.nextFull (r.used + 8 * c.fillerBytes r.used)
      (d.video.venc[e]?).bind (·.job) = none ∧
      (c.staged + size ≤ stagingBytes c.cfg → ∀ c', d.clip? c.id = some c' → c'.n = c.n + 1 ∧
        c'.fullness = (if c.cbr then full else min c.buffer full).toNat ∧ c'.size = (m.w, m.h) ∧
        c'.refPic = Config.recon i r.done) ∧
      (stagingBytes c.cfg < c.staged + size → c.staging ≠ [] → ∀ c', d.clip? c.id = some c' →
        c'.ended = some 2 ∧ c'.n = c.n)) ∧
  (∀ (i : CodeIn) (c : Clip),
    let n := ctbCols i.w * ctbRows i.h
    let r := codePicture c i
    r.done.length = n ∧ (c.qpMin ≤ c.qpMax → c.qpMin ≤ r.qpFirst ∧ r.qpFirst ≤ c.qpMax) ∧
    (4096 + (if i.intra then 48 else 8) * n ≤ c.fullness → r.used ≤ c.fullness)) ∧
  (∀ (q : Nat) (entry data rec_ : List Byte) (x : Queue) (c : Clip) (s : State), q < 2 ^ 20 →
    dueEvidence q entry s.dev = true → s.dev.queue? q = some x → s.dev.wantsBuffer q = some c →
    s.dev.clip? c.id = some c → c.fn = x.fn →
    (Completes (.evidenceFlush q entry) s fun d => (d.queue? q).map (·.device) = some ((x.device + 1) % 2 ^ 32)) ∧
    ((∃ b ∈ entry.drop 0xC, b ≠ 0) → Completes (.evidenceFlush q entry) s fun d =>
      d.due.length = s.dev.due.length + 1 ∧ d.video = s.dev.video) ∧
    ((∀ b ∈ entry.drop 0xC, b = 0) → at_ entry 8 4 < ceilDiv c.buffer 8 →
      Completes (.evidenceFlush q entry) s fun d => d.due = s.dev.due ∧ d.video = s.dev.video) ∧
    ((∀ b ∈ entry.drop 0xC, b = 0) → ceilDiv c.buffer 8 ≤ at_ entry 8 4 → c.ended = none → c.staging = [(data, rec_)] →
      data ≠ [] → data.length ≤ at_ entry 8 4 → Completes (.evidenceFlush q entry) s fun d =>
        d.due = s.dev.due ++ [{ fn := c.fn, queue := x.partner, bytes := evRecord rec_ x.device 0, last := none }] ∧
        (∃ pre post, d.bus = s.dev.bus ++ pre ++ .write c.fn (at_ entry 0 8) data :: post) ∧
        d.clip? c.id = some { c with staging := [], out := some (at_ entry 0 8, at_ entry 8 4, data.length, x.device) }))

/-- Routes (R124, R139): BIND answers its first failed check; a bound route holds its descriptor, and UNBIND of one that no
stream names removes it. -/
def Claims.RouteCommandsAnswerByState : Prop :=
  ∀ (f r tag : Nat) (s : State), f < 7 → r < 65536 → s.dev.serves f .rest = true → Busy s.dev f .route = false →
    let ends := fun (res check : Nat) => Host.Outcome.next (s.withDev
      (Taken s.dev.wakeLink f .route 200 fun d => d.routeCmdEnds f r (tag % 256) res check))
    let off := s.dev.routeEntry f r
    let e := s.dev.commonRead f off 128
    let good := off + 128 ≤ (s.dev.commonGrant f).2 ∧ routeFieldsOk e = true
    let owns := s.dev.ownsRoute f r = true
    let named := ∃ y ∈ s.dev.video.streams, ∃ q ∈ y.slots, q.2 = r
    (s.dev.sealed = false → exec (.routeBind f r tag) s = ends 4 8) ∧
    (s.dev.sealed = true → ¬owns → exec (.routeBind f r tag) s = ends 3 2) ∧
    (¬owns → exec (.routeUnbind f r tag) s = ends 3 0) ∧
    (s.dev.sealed = true → owns → ¬good → exec (.routeBind f r tag) s = ends 1 1) ∧
    (∀ x, s.dev.sealed = true → owns → good → s.dev.bindFail f r e = some x →
      exec (.routeBind f r tag) s = ends x.1 x.2) ∧
    (s.dev.sealed = true → owns → good → s.dev.bindFail f r e = none → Completes (.routeBind f r tag) s fun d =>
      d.route? r = some { id := r, fn := f, desc := e, bound := true } ∧ (∀ q, q ≠ r → d.route? q = s.dev.route? q) ∧
      (f < s.dev.fns.length → (d.fn f).routeSts.result = 0) ∧ d.video.streams = s.dev.video.streams) ∧
    (owns → s.dev.route? r = none ∨ named → exec (.routeUnbind f r tag) s = ends 4 0) ∧
    (owns → (s.dev.route? r).isSome = true → ¬named → Completes (.routeUnbind f r tag) s fun d =>
      d.route? r = none ∧ d.routeDesc r = s.dev.routeDesc r ∧ (∀ q, q ≠ r → d.route? q = s.dev.route? q) ∧
      (f < s.dev.fns.length → (d.fn f).routeSts.result = 0))

/-- Passes (R126, R127, R131 to R133, R384): a unit takes the eligible pass created first, with both its buffers; one that
is not valid ends with PARAMS_INVALID and no job; a pass that ends frees its unit and puts a job of its picture at the tail
of its partition's list. -/
def Claims.PassesMakeTensorsAndJobs : Prop :=
  (∀ (u : Nat) (x : Pass) (s : State), u < 4 → duePassStart u s.dev = true → s.dev.firstPass = some x →
    (s.dev.passValid x = true → Completes (.pscPassStart u) s fun d =>
      ((d.video.passes.find? (·.seq == x.seq)).map fun y => (y.unit, y.startTick, y.params)) =
        some (some u, s.dev.run, s.dev.passParams x) ∧
      (∀ y, d.video.passes.find? (·.seq == x.seq) = some y → x.inBuf = none → y.inBuf.isSome = true ∧ y.outBuf.isSome = true) ∧
      (d.video.psc[u]?).bind (·.pass) = some x.seq ∧ (∀ o, o ≠ u → d.video.psc[o]? = s.dev.video.psc[o]?) ∧
      d.trk = s.dev.trk) ∧
    (s.dev.passValid x = false → Completes (.pscPassStart u) s fun d =>
      (∀ y ∈ d.video.passes, y.seq ≠ x.seq) ∧ d.video.psc = s.dev.video.psc ∧
      ∃ r, d.trk.results = s.dev.trk.results ++ [r] ∧ r.route = x.route ∧ r.slot = x.slot ∧ r.stream = x.stream ∧
        r.serial = x.serial ∧ r.codes = [0x26] ∧ r.job = none)) ∧
  (∀ (u i o : Nat) (x : Pass) (st : Stream) (p : Pic) (pt : Part) (s : State), u < 4 → duePassCommit u s.dev = true →
    s.dev.onUnit u = some x → s.dev.stream? x.stream = some st → s.dev.pic? x.stream x.serial = some p →
    x.inBuf = some i → x.outBuf = some o → (s.dev.picSrc st p).isSome = true →
    s.dev.part? (s.dev.passPart x) = some pt → Completes (.pscPassCommit u) s fun d =>
      (d.video.psc[u]?).map (·.pass) = some none ∧ (∀ y ∈ d.video.passes, y.seq ≠ x.seq) ∧
      ∃ (e : JobEntry) (t : TensorRef), (d.part? pt.id).map (fun q => (q.list, q.jobSeq)) =
          some (pt.list ++ [e], (pt.jobSeq + 1) % 2 ^ 29) ∧
        e.id = pt.id * 2 ^ 29 + pt.jobSeq ∧ e.src = .route x.route [t] ∧ e.fn = st.fn ∧ e.inBufs = [i] ∧ e.outBufs = [o] ∧
        t.route = x.route ∧ t.stream = x.stream ∧ t.serial = x.serial ∧ t.picture = p.number.getD 0 ∧ t.inBuf = i ∧ t.outBuf = o)

/-- Crop tasks (R232, R238): a unit takes the first of the tasks that have gone to it; at its end the task is gone, the
unit's busy count grows by its cost and the function's counters by its boxes. -/
def Claims.CropUnitsRunTheirTasks : Prop :=
  (∀ (u : Nat) (t : CropTask) (s : State), u < 2 → dueCropStart u s.dev = true → s.dev.firstCrop u = some t →
    Completes (.cropTaskStart u) s fun d =>
      (∃ y ∈ d.video.cropTasks, y.seq = t.seq ∧ y.running = true ∧ y.startTick = s.dev.run ∧ y.unit = some u ∧
        y.dstBuf = t.dstBuf) ∧
      (∀ v, s.dev.video.cru[u]? = some v → d.video.cru[u]? = some { v with lastRoute := t.route }) ∧
      (∀ o, o ≠ u → d.video.cru[o]? = s.dev.video.cru[o]?) ∧ d.video.frames = s.dev.video.frames ∧
      d = { s.dev with video := d.video }) ∧
  (∀ (u : Nat) (t : CropTask) (s : State), u < 2 → dueCropDone u s.dev = true → s.dev.cropOn u = some t →
    Completes (.cropTaskDone u) s fun d =>
      (∀ y ∈ d.video.cropTasks, y.seq ≠ t.seq) ∧
      (d.video.cru[u]?).map (·.busyCk) = (s.dev.video.cru[u]?).map (fun v => satAdd 64 v.busyCk t.cost) ∧
      (t.fn < s.dev.fns.length → (d.fn t.fn).cruCnt =
        bump 3 t.counts.2.2 (bump 2 t.counts.2.1 (bump 1 t.counts.1 (bump 0 1 (s.dev.fn t.fn).cruCnt)))) ∧
      d.ctxs = s.dev.ctxs ∧ d.cores = s.dev.cores)

/-- The track engine takes a picture (R28, R106, R292, R297): its outcome is consumed and its record chain becomes due on
the route's queue, RESULT first; a picture without observation keeps every track, one picture older. -/
def Claims.TrackedPicturesOweTheirRecord : Prop :=
  ∀ (n slot : Nat) (x : Stream) (p : Pic) (r : Result) (set : TrackSet) (s : State), n < 16384 → slot < 4 →
    dueTracker n slot s.dev = true → s.dev.trackerNext n slot = some (x, p, r) →
    s.dev.trk.sets.find? (fun t => t.stream == n && t.slot == slot) = some set →
    Completes (.trackerPicture n slot) s fun d =>
      (∃ pre ext a, d.due = s.dev.due ++ pre ++ a :: ext ∧ a.fn = x.fn ∧
        a.queue = at_ (s.dev.routeDesc r.route) 4 4 % 2 ^ 20 ∧ at_ a.bytes 4 1 = 1) ∧
      (∀ y ∈ d.trk.results, ¬(y.stream = n ∧ y.slot = slot ∧ y.serial = r.serial)) ∧
      (unobserved (recordCodes p r 0) = true →
        (d.trk.sets.find? fun t => t.stream == n && t.slot == slot).map (·.tracks) =
          some (set.tracks.map fun t => { t with delta := t.delta + 1, fresh := false })) ∧
      (∀ t ∈ s.dev.trk.sets, (t.stream, t.slot) ≠ (n, slot) → t ∈ d.trk.sets) ∧ d.parts = s.dev.parts ∧
      d.ctxs = s.dev.ctxs ∧ d.cores = s.dev.cores ∧ d.charter = s.dev.charter

/-- The verdict table is read over the registers and the port (R306 to R311, R315): a selected zone shows its entry to the
function that owns its stream, and UNKNOWN to another; a query on the port is answered with the entries as they stand,
counted, or refused by its counter; a port without link or enable takes no frame, but that it answers while the main domain
is down (R488, as log 62 reads it). -/
def Claims.VerdictReadsAnswerTheTable : Prop :=
  (∀ (f z : Nat) (s : State), f < 7 → f < s.dev.fns.length → s.dev.serves f .rest = true →
    Completes (.zoneSelect f z) s fun d =>
      (d.fn f).zoneSel = z % 4096 ∧
      ((∃ y ∈ s.dev.zones, y.id = z % 4096 ∧ (f = 0 ∨ s.dev.ownsStream f y.stream = true)) →
        (d.fn f).zoneData = s.dev.zoneBytes (z % 4096)) ∧
      ((∀ y ∈ s.dev.zones, y.id = z % 4096 → f ≠ 0 ∧ s.dev.ownsStream f y.stream = false) →
        (d.fn f).zoneData = be 2 0 ++ be 2 0 ++ [2] ++ zeros 11) ∧
      (∀ g, g ≠ f → d.fn g = s.dev.fn g) ∧ d = { s.dev.wakeLink with fns := d.fns }) ∧
  (∀ (fr : List Byte) (s : State),
    let v := s.dev.vpt
    let on_ := s.dev.pins.leewardRail = true ∧ v.ready ≤ s.dev.ticks ∧ v.linkUp = true ∧
      (bitAt v.ctl 0 = true ∨ s.dev.boot = .held ∨ ∃ cold cause, s.dev.boot = .booting cold cause)
    (¬on_ → exec (.verdictQuery fr) s = .next (s.withDev s.dev)) ∧
    (on_ → s.dev.considered fr = false → exec (.verdictQuery fr) s =
      .next (s.withDev { s.dev with vpt := { v with other := satAdd 64 v.other 1 } })) ∧
    (on_ → s.dev.considered fr = true → queryZones (parseFrame fr).pay = none → exec (.verdictQuery fr) s =
      .next (s.withDev { s.dev with vpt := { v with bad := satAdd 64 v.bad 1 } })) ∧
    (∀ zs, on_ → s.dev.considered fr = true → queryZones (parseFrame fr).pay = some zs →
      (16 ≤ (v.waiting s.dev.ticks).length → Completes (.verdictQuery fr) s fun d =>
        d.vpt.dropped = satAdd 64 v.dropped 1 ∧ d.bus = s.dev.bus ∧ d.trk = s.dev.trk) ∧
      ((v.waiting s.dev.ticks).length < 16 → Completes (.verdictQuery fr) s fun d =>
        d.bus = s.dev.bus ++ [.frame (s.dev.response (parseFrame fr) zs)] ∧ d.vpt.queries = satAdd 64 v.queries 1 ∧
        d.vpt.worstNs ≥ v.worstNs ∧ d.trk = s.dev.trk ∧ d.lwd = s.dev.lwd ∧ d.fns = s.dev.fns)))

/-- Grants (R132, R385, R387, R390): an allocation that is due gives a pass its two buffers together, a crop task its
buffer, and a re-identification step its next job. -/
def Claims.DepotsGrantWhatWaits : Prop :=
  ∀ (i : Nat) (s : State), i < 256 →
    (∀ q x, dueAllocate i (.pass q) false s.dev = true →
      s.dev.video.passes.find? (fun y => y.seq == q && y.inBuf.isNone) = some x →
      Completes (.depotAllocate i (.pass q) false) s fun d =>
        (∃ y ∈ d.video.passes, y.seq = q ∧ y.inBuf.isSome = true ∧ y.outBuf.isSome = true) ∧ d.trk = s.dev.trk ∧
        d.parts = s.dev.parts ∧ d.mem = s.dev.mem) ∧
    (∀ q, dueAllocate i (.crop q) false s.dev = true → Completes (.depotAllocate i (.crop q) false) s fun d =>
      (∃ y ∈ d.video.cropTasks, y.seq = q ∧ y.dstBuf.isSome = true ∧ y.unit = some s.dev.video.cropUnit) ∧
      d.trk = s.dev.trk ∧ d.parts = s.dev.parts ∧
      d.mem = s.dev.mem) ∧
    (∀ q x, dueAllocate i (.gather q) false s.dev = true → s.dev.trk.steps.find? (·.id == q) = some x →
      Completes (.depotAllocate i (.gather q) false) s fun d =>
        (∀ y, d.trk.steps.find? (·.id == q) = some y → x.issued < y.issued) ∧ d.ctxs = s.dev.ctxs ∧ d.cores = s.dev.cores)

/-- A byte written through BAR2 lands where its aperture maps it: the function's COMMON grant, a partition it owns, or the
charter's staging area; a denied byte is written nowhere and counts (R438 to R440). -/
def Claims.Bar2WritesLandWhereTheyAreMapped : Prop :=
  ∀ (f a : Nat) (b : Byte) (s : State), f < 7 → a < bar2Size f → s.dev.serves f .rest = true →
    Completes (.bar2Write f a [b] false) s fun d =>
      (∀ o, s.dev.barByte f a = some (.common o) → d.mem = (s.dev.commonWrite f o [b]).mem ∧ d.fns = s.dev.fns ∧
        d.charter = s.dev.charter) ∧
      (∀ p o, s.dev.barByte f a = some (.part p o) → d.mem = (s.dev.ownerWrite p o [b]).mem ∧ d.fns = s.dev.fns ∧
        d.charter = s.dev.charter) ∧
      (∀ o, s.dev.barByte f a = some (.staging o) → d.mem = s.dev.mem ∧ d.fns = s.dev.fns ∧
        d.charter = { s.dev.charter with staging := memWrite s.dev.charter.staging o b }) ∧
      (s.dev.barByte f a = none → d.mem = s.dev.mem ∧ d.charter = s.dev.charter ∧ d.parts = s.dev.parts ∧
        (f < s.dev.fns.length → (d.fn f).bar2Denied = satAdd 64 (s.dev.fn f).bar2Denied 1)) ∧
      d.ctxs = s.dev.ctxs ∧ d.cores = s.dev.cores ∧ d.video = s.dev.video ∧ d.queues = s.dev.queues

/-- What reset leaves, where the spec states it (R34, R267, R284, R355, R378, R435, R442, R465, R485, R493, R523, R524): no
charter, no job, no stream, no route, no queue enabled, cores clear, waymarks and scratch registers 0, vectors masked,
counts 0. -/
def Claims.ResetLeavesStatedValues : Prop :=
  let d := State.reset.dev
  d.charter.st = .empty ∧ d.charter.cur = none ∧ d.ctxs = [] ∧ d.due = [] ∧ d.video.streams = [] ∧ d.video.routes = [] ∧
  d.video.clips = [] ∧ d.trk.sets = [] ∧ (∀ q, d.qstate q = 0) ∧ (∀ w, d.wmkAt w = { ix := w, count := 0, counter := false }) ∧
  (∀ c, c < 6 → (d.core c).mem = CoreMem.zero ∧ (d.core c).job = none) ∧
  (∀ f, f < 7 → (d.fn f).scratch = 0 ∧ (d.fn f).mse = false ∧ (d.fn f).bme = false ∧ (d.fn f).qdBase = 0 ∧
    (d.fn f).errLog = [] ∧ (d.fn f).overflow = []) ∧
  (d.fn 0).present = true ∧ (∀ f, 1 ≤ f → f < 7 → (d.fn f).present = false) ∧
  d.lwd.ms = 0 ∧ d.lwd.tripped = false ∧ d.lwd.filters.all (fun f => !f.enabled) = true ∧ d.resetRefused = false ∧
  d.sec.cmd = none ∧ d.sec.recovery = false ∧ d.clk.policy = 1150 + 64 * 2 ^ 16 + 95 * 2 ^ 24

/-! ### Arithmetic and record headers -/

/-- A dot product's result depends only on the multiset of its enabled products, and a cell's write only on the multiset of
its enabled pairs (R175). -/
def Obligations.DotProductsDependOnTheMultiset : Prop :=
  (∀ ps qs : List (FV × FV), (ps.map fun p => fMulX p.1 p.2).Perm (qs.map fun p => fMulX p.1 p.2) →
    (dotFloat ps).1 = (dotFloat qs).1) ∧
  (∀ (sf wf line col : Nat) (acc : Bool) (ps qs : List (FV × FV)) (m : CoreMem), ps.Perm qs →
    cellWrite sf wf line col acc ps m = cellWrite sf wf line col acc qs m)

/-- The output size of a window and the output position of an instruction position (R217, R219): OH − 1 and OW − 1 are the
floors of the quotients, from the run-time IH and IW, and position p is row and column of q = POS0 + p, masked outside OH x
OW and NPOS. -/
def Obligations.WindowsHaveTheirOutputSize : Prop :=
  ∀ (v : Win) (ih iw : Nat), 1 ≤ v.sh → 1 ≤ v.sw → 1 ≤ v.kh → 1 ≤ v.kw →
    let size := v.outSize ih iw
    (∀ z : Int, z ≤ size.1 - 1 ↔ z * v.sh ≤ (ih : Int) + v.pt + v.pb - v.dh * ((v.kh : Int) - 1) - 1) ∧
    (∀ z : Int, z ≤ size.2 - 1 ↔ z * v.sw ≤ (iw : Int) + v.pl + v.pr - v.dw * ((v.kw : Int) - 1) - 1) ∧
    ∀ npos p : Nat,
      let q := v.pos0 + p
      (∀ oy ox, v.pos size npos p = some (oy, ox) ↔ p < npos ∧ 0 < size.1 ∧ 0 < size.2 ∧
        (q : Int) < size.1 * size.2 ∧ (oy : Int) = q / size.2 ∧ (ox : Int) = q % size.2)

/-- CONDITION holds one bit for every condition that applies, the status's own included; a code of class c and low nibble l
sets bit l, 8 + l, 16 + l, 24 + l or 28 + l, and OK sets none (R298); the status is the highest code (R18). -/
def Obligations.ConditionHoldsOneBitPerCode : Prop :=
  ∀ codes : List Nat, (∀ c ∈ codes, c < 0x44) →
    (∀ b, bitAt (condMask codes) b = true ↔ ∃ c ∈ codes, c ≠ 0 ∧
      ((c / 16 = 0 ∧ b = c % 16) ∨ (c / 16 = 1 ∧ b = 8 + c % 16) ∨ (c / 16 = 2 ∧ b = 16 + c % 16) ∨
        (c / 16 = 3 ∧ b = 24 + c % 16) ∨ (c / 16 = 4 ∧ b = 28 + c % 16))) ∧
    (∀ c ∈ codes, c ≤ statusOf codes) ∧ (codes ≠ [] → statusOf codes ∈ codes)

/-! ### The claims above, grouped into statements -/

/-- After reset the queue is empty and the state the spec gives for reset holds. -/
def Obligations.ResetLeavesItsState : Prop :=
  Claims.ResetQueueIsEmptyAndWellFormed ∧ Claims.ResetLeavesStatedValues

/-- Notices: which count, what they update, and FILTER_WRITE. -/
def Obligations.NoticesUpdateOnlyTheirFilters : Prop :=
  Claims.NoticesReachOnlyTheLeewardDomain ∧ Claims.NoticesUpdateFilters ∧ Claims.FilterWriteRestartsItsFilter

/-- The drain enters Leeward and Waking returns to Active. -/
def Obligations.LeewardIsEnteredAndLeft : Prop :=
  Claims.WakingRunsFromTimerToActive ∧ Claims.DrainEntersLeeward

/-- Throttle steps, and the loss of the reference clock. -/
def Obligations.ClocksFollowPowerAndReference : Prop :=
  Claims.ThrottleStepSetsTheLevel ∧ Claims.ReferenceLossStopsTheClocks

/-- Coolant samples report leaks; a thermal trip gates the main domain off. -/
def Obligations.CoolantAndThermalProtection : Prop :=
  Claims.CoolantSamplesReportLeaks ∧ Claims.ThermalTripGatesTheMainDomain

/-- Resets and power loss take the main domain to its reset state. -/
def Obligations.ResetsAndPowerLoss : Prop :=
  Claims.ResetsReturnTheMainDomain ∧ Claims.PowerLossHoldsTheMainDomain

/-- Released pins start the boot; it ends Active, in recovery, or parked. -/
def Obligations.BootStartsAndEnds : Prop :=
  Claims.ReleasedPinsStartTheBoot ∧ Claims.BootEndsInActiveRecoveryOrPark

/-- SEC_CMD commands: what starts, what is dropped, how each ends. -/
def Obligations.SecurityCommandsStartAndEnd : Prop :=
  Claims.SecurityCommandsStart ∧ Claims.BusySecurityCommandsAreDropped ∧ Claims.SecurityCommandsEnd

/-- VF Enable, function enables, power states and invalidations. -/
def Obligations.FunctionsComeAndGo : Prop :=
  Claims.VfEnableGovernsTheVirtualFunctions ∧ Claims.FunctionEnablesAreWritten ∧ Claims.InvalidationsRemoveTranslations

/-- The verdict port: its lane, its queries, and zone reads. -/
def Obligations.VerdictPortAnswers : Prop :=
  Claims.VerdictLaneFollowsItsModule ∧ Claims.VerdictReadsAnswerTheTable

/-- Register writes: halves, misalignment, holes, scratch and ring registers; and what reads return. -/
def Obligations.RegisterWritesKeepTheirRules : Prop :=
  Claims.HalfWritesKeepTheOtherHalf ∧ Claims.RegisterWritesActByTheirRegister ∧ Claims.RegistersReadAsTheMapSays

/-- Table bases, the error log, and BAR2 reads and writes. -/
def Obligations.TablesLogsAndApertures : Prop :=
  Claims.TableBasesMoveOnlyWhileUnused ∧
  Claims.ErrorLogReadsRemoveTheOldest ∧
  Claims.Bar2ReadsAnswerTheirBytes ∧
  Claims.Bar2WritesLandWhereTheyAreMapped

/-- Commands while BUSY; DISABLE, QUERY and RESET of a queue, and the end of a DISABLE. -/
def Obligations.QueueCommandsFollowTheQueue : Prop :=
  Claims.BusyRegistersDropCommands ∧ Claims.QueueCommandsAnswerByState ∧ Claims.DisablingQueuesEnd

/-- Records go to their slot in order, or through the OVERFLOW depot. -/
def Obligations.RecordsReachTheirQueue : Prop :=
  Claims.RecordsGoToTheirSlotOrOverflow ∧ Claims.OverflowDrainsInOrder

/-- Reservations, bad headers, and grants to waiting requests. -/
def Obligations.DepotGrantsFollowReservations : Prop :=
  Claims.ReservationsAreHonoured ∧ Claims.BadHeadersRebuildTheFreeList ∧ Claims.DepotsGrantWhatWaits

/-- Charter commands follow the charter state and report their outcome. -/
def Obligations.CharterCommandsActAndEnd : Prop :=
  Claims.CharterCommandsFollowItsState ∧ Claims.CharterCommandsEnd

/-- Jobs complete with their record; the watchdog tears one down. -/
def Obligations.JobsEndWithTheirRecord : Prop :=
  Claims.JobsCompleteWithTheirRecord ∧ Claims.TheWatchdogTearsTheJobDown

/-- Saves, restores and evictions of contexts. -/
def Obligations.ContextsAreBecalmedAndRestored : Prop :=
  Claims.SavesAndRestoresKeepTheCores ∧ Claims.EvictionsBecalmBlockedContexts

/-- Context commands by state, and partition reset. -/
def Obligations.ContextAndPartitionCommands : Prop :=
  Claims.ContextCommandsAnswerByState ∧ Claims.PartitionResetClearsThePartition

/-- Muster start points, pulses, mismatches and waybill signing. -/
def Obligations.MusterStartsAndAuditActs : Prop :=
  Claims.MusterStartsWaitingJobs ∧ Claims.MusterAndSigningActOnTheAuditUnit

/-- Array instructions run their plan and write only its lines. -/
def Obligations.ArrayRowsComputeTheirPlan : Prop :=
  Claims.ArrayRowsRunTheirPlan ∧ Claims.ArrayPlansWriteOnlyTheirLines

/-- SETLEN sets one length register; DGP and END close digest entries. -/
def Obligations.SetlenAndDigestPoints : Prop :=
  Claims.SetlenSetsItsRegister ∧ Claims.DigestsCloseInOrder

/-- LDT and STT: their bound, their landing and their release. -/
def Obligations.TransfersQueueLandAndRelease : Prop :=
  Claims.TransfersQueueWithTheirBound ∧ Claims.TransfersLandAndAreReleased

/-- A fault tears the job down; an uncorrectable read reissues it. -/
def Obligations.FaultsAndMemoryErrorsEndAttempts : Prop :=
  Claims.FaultingInstructionsTearTheJobDown ∧ Claims.UncorrectableReadsReissueTheJob

/-- Refresh, retraining and forced lulls begin and end. -/
def Obligations.LullsRun : Prop :=
  Claims.RefreshLullsBeginAndEnd ∧ Claims.RetrainingLullsRun

/-- A failing channel moves to a spare; every owner reads as before. -/
def Obligations.MigrationsKeepTheContents : Prop :=
  Claims.MigrationsCopyToASpare ∧ Claims.SwitchedChannelsKeepTheirContents

/-- Stream commands by their checks, the end of a CLOSE, and the heavy log. -/
def Obligations.StreamsOpenAndClose : Prop :=
  Claims.StreamCommandsAnswerByState ∧ Claims.StreamsEndAndHeavyLogsAreRead

/-- From chunk to decoded picture to its passes and records. -/
def Obligations.PicturesAreFetchedDecodedAndForwarded : Prop :=
  Claims.ChunksBecomePictures ∧ Claims.EnginesDecodeAndConceal ∧ Claims.PicturesGoForward

/-- Clip commands, encoding and evidence writes. -/
def Obligations.ClipsAreCodedAndWritten : Prop :=
  Claims.ClipCommandsAnswerByState ∧ Claims.EncodersCodeAndWriteEvidence

/-- Route commands; passes make tensors and jobs. -/
def Obligations.RoutesAndPassesMakeJobs : Prop :=
  Claims.RouteCommandsAnswerByState ∧ Claims.PassesMakeTensorsAndJobs

/-- Crop tasks run and end; the track engine owes each picture its record. -/
def Obligations.CropsAndTracksAdvance : Prop :=
  Claims.CropUnitsRunTheirTasks ∧ Claims.TrackedPicturesOweTheirRecord
end

