-- ==== Sys2Proof/Laws/State.lean ====
section
/-! SUPPORT. One lemma for each field of the machine's state and each of the named updates of Ops: what the update sets, and
that it leaves every other field. All hold by unfolding the update, so no later proof needs to. -/

namespace Sys2Proof.Machine

@[simp] theorem State.withDev_dev (s : State) (d : Dev) : (s.withDev d).dev = d := rfl
@[simp] theorem State.withDev_pending (s : State) (d : Dev) : (s.withDev d).pending = s.pending := rfl
@[simp] theorem State.withDev_withDev (s : State) (d e : Dev) : (s.withDev d).withDev e = s.withDev e := rfl
@[simp] theorem State.withDev_self (s : State) : s.withDev s.dev = s := rfl

/-! ### Function -/

@[simp] theorem Dev.modFn_ticks (d : Dev) (f : Nat) (g : Fn → Fn) : (d.modFn f g).ticks = d.ticks := rfl
@[simp] theorem Dev.modFn_run (d : Dev) (f : Nat) (g : Fn → Fn) : (d.modFn f g).run = d.run := rfl
@[simp] theorem Dev.modFn_coreRun (d : Dev) (f : Nat) (g : Fn → Fn) : (d.modFn f g).coreRun = d.coreRun := rfl
@[simp] theorem Dev.modFn_free (d : Dev) (f : Nat) (g : Fn → Fn) : (d.modFn f g).free = d.free := rfl
@[simp] theorem Dev.modFn_fresh (d : Dev) (f : Nat) (g : Fn → Fn) : (d.modFn f g).fresh = d.fresh := rfl
@[simp] theorem Dev.modFn_pins (d : Dev) (f : Nat) (g : Fn → Fn) : (d.modFn f g).pins = d.pins := rfl
@[simp] theorem Dev.modFn_boot (d : Dev) (f : Nat) (g : Fn → Fn) : (d.modFn f g).boot = d.boot := rfl
@[simp] theorem Dev.modFn_resetRefused (d : Dev) (f : Nat) (g : Fn → Fn) : (d.modFn f g).resetRefused = d.resetRefused := rfl
@[simp] theorem Dev.modFn_link (d : Dev) (f : Nat) (g : Fn → Fn) : (d.modFn f g).link = d.link := rfl
@[simp] theorem Dev.modFn_lwd (d : Dev) (f : Nat) (g : Fn → Fn) : (d.modFn f g).lwd = d.lwd := rfl
@[simp] theorem Dev.modFn_clk (d : Dev) (f : Nat) (g : Fn → Fn) : (d.modFn f g).clk = d.clk := rfl
@[simp] theorem Dev.modFn_sec (d : Dev) (f : Nat) (g : Fn → Fn) : (d.modFn f g).sec = d.sec := rfl
@[simp] theorem Dev.modFn_fns (d : Dev) (f : Nat) (g : Fn → Fn) : (d.modFn f g).fns = modAt g f d.fns := rfl
@[simp] theorem Dev.modFn_queues (d : Dev) (f : Nat) (g : Fn → Fn) : (d.modFn f g).queues = d.queues := rfl
@[simp] theorem Dev.modFn_due (d : Dev) (f : Nat) (g : Fn → Fn) : (d.modFn f g).due = d.due := rfl
@[simp] theorem Dev.modFn_bus (d : Dev) (f : Nat) (g : Fn → Fn) : (d.modFn f g).bus = d.bus := rfl
@[simp] theorem Dev.modFn_charter (d : Dev) (f : Nat) (g : Fn → Fn) : (d.modFn f g).charter = d.charter := rfl
@[simp] theorem Dev.modFn_parts (d : Dev) (f : Nat) (g : Fn → Fn) : (d.modFn f g).parts = d.parts := rfl
@[simp] theorem Dev.modFn_ctxs (d : Dev) (f : Nat) (g : Fn → Fn) : (d.modFn f g).ctxs = d.ctxs := rfl
@[simp] theorem Dev.modFn_cores (d : Dev) (f : Nat) (g : Fn → Fn) : (d.modFn f g).cores = d.cores := rfl
@[simp] theorem Dev.modFn_wmk (d : Dev) (f : Nat) (g : Fn → Fn) : (d.modFn f g).wmk = d.wmk := rfl
@[simp] theorem Dev.modFn_depots (d : Dev) (f : Nat) (g : Fn → Fn) : (d.modFn f g).depots = d.depots := rfl
@[simp] theorem Dev.modFn_mem (d : Dev) (f : Nat) (g : Fn → Fn) : (d.modFn f g).mem = d.mem := rfl
@[simp] theorem Dev.modFn_video (d : Dev) (f : Nat) (g : Fn → Fn) : (d.modFn f g).video = d.video := rfl
@[simp] theorem Dev.modFn_trk (d : Dev) (f : Nat) (g : Fn → Fn) : (d.modFn f g).trk = d.trk := rfl
@[simp] theorem Dev.modFn_vpt (d : Dev) (f : Nat) (g : Fn → Fn) : (d.modFn f g).vpt = d.vpt := rfl
@[simp] theorem Dev.modFn_dau (d : Dev) (f : Nat) (g : Fn → Fn) : (d.modFn f g).dau = d.dau := rfl

/-! ### Core -/

@[simp] theorem Dev.modCore_ticks (d : Dev) (c : Nat) (g : Core → Core) : (d.modCore c g).ticks = d.ticks := rfl
@[simp] theorem Dev.modCore_run (d : Dev) (c : Nat) (g : Core → Core) : (d.modCore c g).run = d.run := rfl
@[simp] theorem Dev.modCore_coreRun (d : Dev) (c : Nat) (g : Core → Core) : (d.modCore c g).coreRun = d.coreRun := rfl
@[simp] theorem Dev.modCore_free (d : Dev) (c : Nat) (g : Core → Core) : (d.modCore c g).free = d.free := rfl
@[simp] theorem Dev.modCore_fresh (d : Dev) (c : Nat) (g : Core → Core) : (d.modCore c g).fresh = d.fresh := rfl
@[simp] theorem Dev.modCore_pins (d : Dev) (c : Nat) (g : Core → Core) : (d.modCore c g).pins = d.pins := rfl
@[simp] theorem Dev.modCore_boot (d : Dev) (c : Nat) (g : Core → Core) : (d.modCore c g).boot = d.boot := rfl
@[simp] theorem Dev.modCore_resetRefused (d : Dev) (c : Nat) (g : Core → Core) : (d.modCore c g).resetRefused = d.resetRefused := rfl
@[simp] theorem Dev.modCore_link (d : Dev) (c : Nat) (g : Core → Core) : (d.modCore c g).link = d.link := rfl
@[simp] theorem Dev.modCore_lwd (d : Dev) (c : Nat) (g : Core → Core) : (d.modCore c g).lwd = d.lwd := rfl
@[simp] theorem Dev.modCore_clk (d : Dev) (c : Nat) (g : Core → Core) : (d.modCore c g).clk = d.clk := rfl
@[simp] theorem Dev.modCore_sec (d : Dev) (c : Nat) (g : Core → Core) : (d.modCore c g).sec = d.sec := rfl
@[simp] theorem Dev.modCore_fns (d : Dev) (c : Nat) (g : Core → Core) : (d.modCore c g).fns = d.fns := rfl
@[simp] theorem Dev.modCore_queues (d : Dev) (c : Nat) (g : Core → Core) : (d.modCore c g).queues = d.queues := rfl
@[simp] theorem Dev.modCore_due (d : Dev) (c : Nat) (g : Core → Core) : (d.modCore c g).due = d.due := rfl
@[simp] theorem Dev.modCore_bus (d : Dev) (c : Nat) (g : Core → Core) : (d.modCore c g).bus = d.bus := rfl
@[simp] theorem Dev.modCore_charter (d : Dev) (c : Nat) (g : Core → Core) : (d.modCore c g).charter = d.charter := rfl
@[simp] theorem Dev.modCore_parts (d : Dev) (c : Nat) (g : Core → Core) : (d.modCore c g).parts = d.parts := rfl
@[simp] theorem Dev.modCore_ctxs (d : Dev) (c : Nat) (g : Core → Core) : (d.modCore c g).ctxs = d.ctxs := rfl
@[simp] theorem Dev.modCore_cores (d : Dev) (c : Nat) (g : Core → Core) : (d.modCore c g).cores = modAt g c d.cores := rfl
@[simp] theorem Dev.modCore_wmk (d : Dev) (c : Nat) (g : Core → Core) : (d.modCore c g).wmk = d.wmk := rfl
@[simp] theorem Dev.modCore_depots (d : Dev) (c : Nat) (g : Core → Core) : (d.modCore c g).depots = d.depots := rfl
@[simp] theorem Dev.modCore_mem (d : Dev) (c : Nat) (g : Core → Core) : (d.modCore c g).mem = d.mem := rfl
@[simp] theorem Dev.modCore_video (d : Dev) (c : Nat) (g : Core → Core) : (d.modCore c g).video = d.video := rfl
@[simp] theorem Dev.modCore_trk (d : Dev) (c : Nat) (g : Core → Core) : (d.modCore c g).trk = d.trk := rfl
@[simp] theorem Dev.modCore_vpt (d : Dev) (c : Nat) (g : Core → Core) : (d.modCore c g).vpt = d.vpt := rfl
@[simp] theorem Dev.modCore_dau (d : Dev) (c : Nat) (g : Core → Core) : (d.modCore c g).dau = d.dau := rfl

/-! ### Partition -/

@[simp] theorem Dev.modPart_ticks (d : Dev) (p : Nat) (g : Part → Part) : (d.modPart p g).ticks = d.ticks := rfl
@[simp] theorem Dev.modPart_run (d : Dev) (p : Nat) (g : Part → Part) : (d.modPart p g).run = d.run := rfl
@[simp] theorem Dev.modPart_coreRun (d : Dev) (p : Nat) (g : Part → Part) : (d.modPart p g).coreRun = d.coreRun := rfl
@[simp] theorem Dev.modPart_free (d : Dev) (p : Nat) (g : Part → Part) : (d.modPart p g).free = d.free := rfl
@[simp] theorem Dev.modPart_fresh (d : Dev) (p : Nat) (g : Part → Part) : (d.modPart p g).fresh = d.fresh := rfl
@[simp] theorem Dev.modPart_pins (d : Dev) (p : Nat) (g : Part → Part) : (d.modPart p g).pins = d.pins := rfl
@[simp] theorem Dev.modPart_boot (d : Dev) (p : Nat) (g : Part → Part) : (d.modPart p g).boot = d.boot := rfl
@[simp] theorem Dev.modPart_resetRefused (d : Dev) (p : Nat) (g : Part → Part) : (d.modPart p g).resetRefused = d.resetRefused := rfl
@[simp] theorem Dev.modPart_link (d : Dev) (p : Nat) (g : Part → Part) : (d.modPart p g).link = d.link := rfl
@[simp] theorem Dev.modPart_lwd (d : Dev) (p : Nat) (g : Part → Part) : (d.modPart p g).lwd = d.lwd := rfl
@[simp] theorem Dev.modPart_clk (d : Dev) (p : Nat) (g : Part → Part) : (d.modPart p g).clk = d.clk := rfl
@[simp] theorem Dev.modPart_sec (d : Dev) (p : Nat) (g : Part → Part) : (d.modPart p g).sec = d.sec := rfl
@[simp] theorem Dev.modPart_fns (d : Dev) (p : Nat) (g : Part → Part) : (d.modPart p g).fns = d.fns := rfl
@[simp] theorem Dev.modPart_queues (d : Dev) (p : Nat) (g : Part → Part) : (d.modPart p g).queues = d.queues := rfl
@[simp] theorem Dev.modPart_due (d : Dev) (p : Nat) (g : Part → Part) : (d.modPart p g).due = d.due := rfl
@[simp] theorem Dev.modPart_bus (d : Dev) (p : Nat) (g : Part → Part) : (d.modPart p g).bus = d.bus := rfl
@[simp] theorem Dev.modPart_charter (d : Dev) (p : Nat) (g : Part → Part) : (d.modPart p g).charter = d.charter := rfl
@[simp] theorem Dev.modPart_parts (d : Dev) (p : Nat) (g : Part → Part) : (d.modPart p g).parts = modIf (·.id == p) g d.parts := rfl
@[simp] theorem Dev.modPart_ctxs (d : Dev) (p : Nat) (g : Part → Part) : (d.modPart p g).ctxs = d.ctxs := rfl
@[simp] theorem Dev.modPart_cores (d : Dev) (p : Nat) (g : Part → Part) : (d.modPart p g).cores = d.cores := rfl
@[simp] theorem Dev.modPart_wmk (d : Dev) (p : Nat) (g : Part → Part) : (d.modPart p g).wmk = d.wmk := rfl
@[simp] theorem Dev.modPart_depots (d : Dev) (p : Nat) (g : Part → Part) : (d.modPart p g).depots = d.depots := rfl
@[simp] theorem Dev.modPart_mem (d : Dev) (p : Nat) (g : Part → Part) : (d.modPart p g).mem = d.mem := rfl
@[simp] theorem Dev.modPart_video (d : Dev) (p : Nat) (g : Part → Part) : (d.modPart p g).video = d.video := rfl
@[simp] theorem Dev.modPart_trk (d : Dev) (p : Nat) (g : Part → Part) : (d.modPart p g).trk = d.trk := rfl
@[simp] theorem Dev.modPart_vpt (d : Dev) (p : Nat) (g : Part → Part) : (d.modPart p g).vpt = d.vpt := rfl
@[simp] theorem Dev.modPart_dau (d : Dev) (p : Nat) (g : Part → Part) : (d.modPart p g).dau = d.dau := rfl

/-! ### Context -/

@[simp] theorem Dev.modCtx_ticks (d : Dev) (j : Nat) (g : Ctx → Ctx) : (d.modCtx j g).ticks = d.ticks := rfl
@[simp] theorem Dev.modCtx_run (d : Dev) (j : Nat) (g : Ctx → Ctx) : (d.modCtx j g).run = d.run := rfl
@[simp] theorem Dev.modCtx_coreRun (d : Dev) (j : Nat) (g : Ctx → Ctx) : (d.modCtx j g).coreRun = d.coreRun := rfl
@[simp] theorem Dev.modCtx_free (d : Dev) (j : Nat) (g : Ctx → Ctx) : (d.modCtx j g).free = d.free := rfl
@[simp] theorem Dev.modCtx_fresh (d : Dev) (j : Nat) (g : Ctx → Ctx) : (d.modCtx j g).fresh = d.fresh := rfl
@[simp] theorem Dev.modCtx_pins (d : Dev) (j : Nat) (g : Ctx → Ctx) : (d.modCtx j g).pins = d.pins := rfl
@[simp] theorem Dev.modCtx_boot (d : Dev) (j : Nat) (g : Ctx → Ctx) : (d.modCtx j g).boot = d.boot := rfl
@[simp] theorem Dev.modCtx_resetRefused (d : Dev) (j : Nat) (g : Ctx → Ctx) : (d.modCtx j g).resetRefused = d.resetRefused := rfl
@[simp] theorem Dev.modCtx_link (d : Dev) (j : Nat) (g : Ctx → Ctx) : (d.modCtx j g).link = d.link := rfl
@[simp] theorem Dev.modCtx_lwd (d : Dev) (j : Nat) (g : Ctx → Ctx) : (d.modCtx j g).lwd = d.lwd := rfl
@[simp] theorem Dev.modCtx_clk (d : Dev) (j : Nat) (g : Ctx → Ctx) : (d.modCtx j g).clk = d.clk := rfl
@[simp] theorem Dev.modCtx_sec (d : Dev) (j : Nat) (g : Ctx → Ctx) : (d.modCtx j g).sec = d.sec := rfl
@[simp] theorem Dev.modCtx_fns (d : Dev) (j : Nat) (g : Ctx → Ctx) : (d.modCtx j g).fns = d.fns := rfl
@[simp] theorem Dev.modCtx_queues (d : Dev) (j : Nat) (g : Ctx → Ctx) : (d.modCtx j g).queues = d.queues := rfl
@[simp] theorem Dev.modCtx_due (d : Dev) (j : Nat) (g : Ctx → Ctx) : (d.modCtx j g).due = d.due := rfl
@[simp] theorem Dev.modCtx_bus (d : Dev) (j : Nat) (g : Ctx → Ctx) : (d.modCtx j g).bus = d.bus := rfl
@[simp] theorem Dev.modCtx_charter (d : Dev) (j : Nat) (g : Ctx → Ctx) : (d.modCtx j g).charter = d.charter := rfl
@[simp] theorem Dev.modCtx_parts (d : Dev) (j : Nat) (g : Ctx → Ctx) : (d.modCtx j g).parts = d.parts := rfl
@[simp] theorem Dev.modCtx_ctxs (d : Dev) (j : Nat) (g : Ctx → Ctx) : (d.modCtx j g).ctxs = modIf (·.entry.id == j) g d.ctxs := rfl
@[simp] theorem Dev.modCtx_cores (d : Dev) (j : Nat) (g : Ctx → Ctx) : (d.modCtx j g).cores = d.cores := rfl
@[simp] theorem Dev.modCtx_wmk (d : Dev) (j : Nat) (g : Ctx → Ctx) : (d.modCtx j g).wmk = d.wmk := rfl
@[simp] theorem Dev.modCtx_depots (d : Dev) (j : Nat) (g : Ctx → Ctx) : (d.modCtx j g).depots = d.depots := rfl
@[simp] theorem Dev.modCtx_mem (d : Dev) (j : Nat) (g : Ctx → Ctx) : (d.modCtx j g).mem = d.mem := rfl
@[simp] theorem Dev.modCtx_video (d : Dev) (j : Nat) (g : Ctx → Ctx) : (d.modCtx j g).video = d.video := rfl
@[simp] theorem Dev.modCtx_trk (d : Dev) (j : Nat) (g : Ctx → Ctx) : (d.modCtx j g).trk = d.trk := rfl
@[simp] theorem Dev.modCtx_vpt (d : Dev) (j : Nat) (g : Ctx → Ctx) : (d.modCtx j g).vpt = d.vpt := rfl
@[simp] theorem Dev.modCtx_dau (d : Dev) (j : Nat) (g : Ctx → Ctx) : (d.modCtx j g).dau = d.dau := rfl

/-! ### Depot -/

@[simp] theorem Dev.modDepot_ticks (d : Dev) (i : Nat) (g : Depot → Depot) : (d.modDepot i g).ticks = d.ticks := rfl
@[simp] theorem Dev.modDepot_run (d : Dev) (i : Nat) (g : Depot → Depot) : (d.modDepot i g).run = d.run := rfl
@[simp] theorem Dev.modDepot_coreRun (d : Dev) (i : Nat) (g : Depot → Depot) : (d.modDepot i g).coreRun = d.coreRun := rfl
@[simp] theorem Dev.modDepot_free (d : Dev) (i : Nat) (g : Depot → Depot) : (d.modDepot i g).free = d.free := rfl
@[simp] theorem Dev.modDepot_fresh (d : Dev) (i : Nat) (g : Depot → Depot) : (d.modDepot i g).fresh = d.fresh := rfl
@[simp] theorem Dev.modDepot_pins (d : Dev) (i : Nat) (g : Depot → Depot) : (d.modDepot i g).pins = d.pins := rfl
@[simp] theorem Dev.modDepot_boot (d : Dev) (i : Nat) (g : Depot → Depot) : (d.modDepot i g).boot = d.boot := rfl
@[simp] theorem Dev.modDepot_resetRefused (d : Dev) (i : Nat) (g : Depot → Depot) : (d.modDepot i g).resetRefused = d.resetRefused := rfl
@[simp] theorem Dev.modDepot_link (d : Dev) (i : Nat) (g : Depot → Depot) : (d.modDepot i g).link = d.link := rfl
@[simp] theorem Dev.modDepot_lwd (d : Dev) (i : Nat) (g : Depot → Depot) : (d.modDepot i g).lwd = d.lwd := rfl
@[simp] theorem Dev.modDepot_clk (d : Dev) (i : Nat) (g : Depot → Depot) : (d.modDepot i g).clk = d.clk := rfl
@[simp] theorem Dev.modDepot_sec (d : Dev) (i : Nat) (g : Depot → Depot) : (d.modDepot i g).sec = d.sec := rfl
@[simp] theorem Dev.modDepot_fns (d : Dev) (i : Nat) (g : Depot → Depot) : (d.modDepot i g).fns = d.fns := rfl
@[simp] theorem Dev.modDepot_queues (d : Dev) (i : Nat) (g : Depot → Depot) : (d.modDepot i g).queues = d.queues := rfl
@[simp] theorem Dev.modDepot_due (d : Dev) (i : Nat) (g : Depot → Depot) : (d.modDepot i g).due = d.due := rfl
@[simp] theorem Dev.modDepot_bus (d : Dev) (i : Nat) (g : Depot → Depot) : (d.modDepot i g).bus = d.bus := rfl
@[simp] theorem Dev.modDepot_charter (d : Dev) (i : Nat) (g : Depot → Depot) : (d.modDepot i g).charter = d.charter := rfl
@[simp] theorem Dev.modDepot_parts (d : Dev) (i : Nat) (g : Depot → Depot) : (d.modDepot i g).parts = d.parts := rfl
@[simp] theorem Dev.modDepot_ctxs (d : Dev) (i : Nat) (g : Depot → Depot) : (d.modDepot i g).ctxs = d.ctxs := rfl
@[simp] theorem Dev.modDepot_cores (d : Dev) (i : Nat) (g : Depot → Depot) : (d.modDepot i g).cores = d.cores := rfl
@[simp] theorem Dev.modDepot_wmk (d : Dev) (i : Nat) (g : Depot → Depot) : (d.modDepot i g).wmk = d.wmk := rfl
@[simp] theorem Dev.modDepot_depots (d : Dev) (i : Nat) (g : Depot → Depot) : (d.modDepot i g).depots = modIf (·.id == i) g d.depots := rfl
@[simp] theorem Dev.modDepot_mem (d : Dev) (i : Nat) (g : Depot → Depot) : (d.modDepot i g).mem = d.mem := rfl
@[simp] theorem Dev.modDepot_video (d : Dev) (i : Nat) (g : Depot → Depot) : (d.modDepot i g).video = d.video := rfl
@[simp] theorem Dev.modDepot_trk (d : Dev) (i : Nat) (g : Depot → Depot) : (d.modDepot i g).trk = d.trk := rfl
@[simp] theorem Dev.modDepot_vpt (d : Dev) (i : Nat) (g : Depot → Depot) : (d.modDepot i g).vpt = d.vpt := rfl
@[simp] theorem Dev.modDepot_dau (d : Dev) (i : Nat) (g : Depot → Depot) : (d.modDepot i g).dau = d.dau := rfl

/-! ### Queue -/

@[simp] theorem Dev.modQueue_ticks (d : Dev) (q : Nat) (g : Queue → Queue) : (d.modQueue q g).ticks = d.ticks := rfl
@[simp] theorem Dev.modQueue_run (d : Dev) (q : Nat) (g : Queue → Queue) : (d.modQueue q g).run = d.run := rfl
@[simp] theorem Dev.modQueue_coreRun (d : Dev) (q : Nat) (g : Queue → Queue) : (d.modQueue q g).coreRun = d.coreRun := rfl
@[simp] theorem Dev.modQueue_free (d : Dev) (q : Nat) (g : Queue → Queue) : (d.modQueue q g).free = d.free := rfl
@[simp] theorem Dev.modQueue_fresh (d : Dev) (q : Nat) (g : Queue → Queue) : (d.modQueue q g).fresh = d.fresh := rfl
@[simp] theorem Dev.modQueue_pins (d : Dev) (q : Nat) (g : Queue → Queue) : (d.modQueue q g).pins = d.pins := rfl
@[simp] theorem Dev.modQueue_boot (d : Dev) (q : Nat) (g : Queue → Queue) : (d.modQueue q g).boot = d.boot := rfl
@[simp] theorem Dev.modQueue_resetRefused (d : Dev) (q : Nat) (g : Queue → Queue) : (d.modQueue q g).resetRefused = d.resetRefused := rfl
@[simp] theorem Dev.modQueue_link (d : Dev) (q : Nat) (g : Queue → Queue) : (d.modQueue q g).link = d.link := rfl
@[simp] theorem Dev.modQueue_lwd (d : Dev) (q : Nat) (g : Queue → Queue) : (d.modQueue q g).lwd = d.lwd := rfl
@[simp] theorem Dev.modQueue_clk (d : Dev) (q : Nat) (g : Queue → Queue) : (d.modQueue q g).clk = d.clk := rfl
@[simp] theorem Dev.modQueue_sec (d : Dev) (q : Nat) (g : Queue → Queue) : (d.modQueue q g).sec = d.sec := rfl
@[simp] theorem Dev.modQueue_fns (d : Dev) (q : Nat) (g : Queue → Queue) : (d.modQueue q g).fns = d.fns := rfl
@[simp] theorem Dev.modQueue_queues (d : Dev) (q : Nat) (g : Queue → Queue) : (d.modQueue q g).queues = modIf (·.id == q) g d.queues := rfl
@[simp] theorem Dev.modQueue_due (d : Dev) (q : Nat) (g : Queue → Queue) : (d.modQueue q g).due = d.due := rfl
@[simp] theorem Dev.modQueue_bus (d : Dev) (q : Nat) (g : Queue → Queue) : (d.modQueue q g).bus = d.bus := rfl
@[simp] theorem Dev.modQueue_charter (d : Dev) (q : Nat) (g : Queue → Queue) : (d.modQueue q g).charter = d.charter := rfl
@[simp] theorem Dev.modQueue_parts (d : Dev) (q : Nat) (g : Queue → Queue) : (d.modQueue q g).parts = d.parts := rfl
@[simp] theorem Dev.modQueue_ctxs (d : Dev) (q : Nat) (g : Queue → Queue) : (d.modQueue q g).ctxs = d.ctxs := rfl
@[simp] theorem Dev.modQueue_cores (d : Dev) (q : Nat) (g : Queue → Queue) : (d.modQueue q g).cores = d.cores := rfl
@[simp] theorem Dev.modQueue_wmk (d : Dev) (q : Nat) (g : Queue → Queue) : (d.modQueue q g).wmk = d.wmk := rfl
@[simp] theorem Dev.modQueue_depots (d : Dev) (q : Nat) (g : Queue → Queue) : (d.modQueue q g).depots = d.depots := rfl
@[simp] theorem Dev.modQueue_mem (d : Dev) (q : Nat) (g : Queue → Queue) : (d.modQueue q g).mem = d.mem := rfl
@[simp] theorem Dev.modQueue_video (d : Dev) (q : Nat) (g : Queue → Queue) : (d.modQueue q g).video = d.video := rfl
@[simp] theorem Dev.modQueue_trk (d : Dev) (q : Nat) (g : Queue → Queue) : (d.modQueue q g).trk = d.trk := rfl
@[simp] theorem Dev.modQueue_vpt (d : Dev) (q : Nat) (g : Queue → Queue) : (d.modQueue q g).vpt = d.vpt := rfl
@[simp] theorem Dev.modQueue_dau (d : Dev) (q : Nat) (g : Queue → Queue) : (d.modQueue q g).dau = d.dau := rfl

/-! ### Video subsystem -/

@[simp] theorem Dev.modVideo_ticks (d : Dev) (g : Video → Video) : (d.modVideo g).ticks = d.ticks := rfl
@[simp] theorem Dev.modVideo_run (d : Dev) (g : Video → Video) : (d.modVideo g).run = d.run := rfl
@[simp] theorem Dev.modVideo_coreRun (d : Dev) (g : Video → Video) : (d.modVideo g).coreRun = d.coreRun := rfl
@[simp] theorem Dev.modVideo_free (d : Dev) (g : Video → Video) : (d.modVideo g).free = d.free := rfl
@[simp] theorem Dev.modVideo_fresh (d : Dev) (g : Video → Video) : (d.modVideo g).fresh = d.fresh := rfl
@[simp] theorem Dev.modVideo_pins (d : Dev) (g : Video → Video) : (d.modVideo g).pins = d.pins := rfl
@[simp] theorem Dev.modVideo_boot (d : Dev) (g : Video → Video) : (d.modVideo g).boot = d.boot := rfl
@[simp] theorem Dev.modVideo_resetRefused (d : Dev) (g : Video → Video) : (d.modVideo g).resetRefused = d.resetRefused := rfl
@[simp] theorem Dev.modVideo_link (d : Dev) (g : Video → Video) : (d.modVideo g).link = d.link := rfl
@[simp] theorem Dev.modVideo_lwd (d : Dev) (g : Video → Video) : (d.modVideo g).lwd = d.lwd := rfl
@[simp] theorem Dev.modVideo_clk (d : Dev) (g : Video → Video) : (d.modVideo g).clk = d.clk := rfl
@[simp] theorem Dev.modVideo_sec (d : Dev) (g : Video → Video) : (d.modVideo g).sec = d.sec := rfl
@[simp] theorem Dev.modVideo_fns (d : Dev) (g : Video → Video) : (d.modVideo g).fns = d.fns := rfl
@[simp] theorem Dev.modVideo_queues (d : Dev) (g : Video → Video) : (d.modVideo g).queues = d.queues := rfl
@[simp] theorem Dev.modVideo_due (d : Dev) (g : Video → Video) : (d.modVideo g).due = d.due := rfl
@[simp] theorem Dev.modVideo_bus (d : Dev) (g : Video → Video) : (d.modVideo g).bus = d.bus := rfl
@[simp] theorem Dev.modVideo_charter (d : Dev) (g : Video → Video) : (d.modVideo g).charter = d.charter := rfl
@[simp] theorem Dev.modVideo_parts (d : Dev) (g : Video → Video) : (d.modVideo g).parts = d.parts := rfl
@[simp] theorem Dev.modVideo_ctxs (d : Dev) (g : Video → Video) : (d.modVideo g).ctxs = d.ctxs := rfl
@[simp] theorem Dev.modVideo_cores (d : Dev) (g : Video → Video) : (d.modVideo g).cores = d.cores := rfl
@[simp] theorem Dev.modVideo_wmk (d : Dev) (g : Video → Video) : (d.modVideo g).wmk = d.wmk := rfl
@[simp] theorem Dev.modVideo_depots (d : Dev) (g : Video → Video) : (d.modVideo g).depots = d.depots := rfl
@[simp] theorem Dev.modVideo_mem (d : Dev) (g : Video → Video) : (d.modVideo g).mem = d.mem := rfl
@[simp] theorem Dev.modVideo_video (d : Dev) (g : Video → Video) : (d.modVideo g).video = g d.video := rfl
@[simp] theorem Dev.modVideo_trk (d : Dev) (g : Video → Video) : (d.modVideo g).trk = d.trk := rfl
@[simp] theorem Dev.modVideo_vpt (d : Dev) (g : Video → Video) : (d.modVideo g).vpt = d.vpt := rfl
@[simp] theorem Dev.modVideo_dau (d : Dev) (g : Video → Video) : (d.modVideo g).dau = d.dau := rfl

/-! ### Stream -/

@[simp] theorem Dev.modStream_ticks (d : Dev) (n : Nat) (g : Stream → Stream) : (d.modStream n g).ticks = d.ticks := rfl
@[simp] theorem Dev.modStream_run (d : Dev) (n : Nat) (g : Stream → Stream) : (d.modStream n g).run = d.run := rfl
@[simp] theorem Dev.modStream_coreRun (d : Dev) (n : Nat) (g : Stream → Stream) : (d.modStream n g).coreRun = d.coreRun := rfl
@[simp] theorem Dev.modStream_free (d : Dev) (n : Nat) (g : Stream → Stream) : (d.modStream n g).free = d.free := rfl
@[simp] theorem Dev.modStream_fresh (d : Dev) (n : Nat) (g : Stream → Stream) : (d.modStream n g).fresh = d.fresh := rfl
@[simp] theorem Dev.modStream_pins (d : Dev) (n : Nat) (g : Stream → Stream) : (d.modStream n g).pins = d.pins := rfl
@[simp] theorem Dev.modStream_boot (d : Dev) (n : Nat) (g : Stream → Stream) : (d.modStream n g).boot = d.boot := rfl
@[simp] theorem Dev.modStream_resetRefused (d : Dev) (n : Nat) (g : Stream → Stream) : (d.modStream n g).resetRefused = d.resetRefused := rfl
@[simp] theorem Dev.modStream_link (d : Dev) (n : Nat) (g : Stream → Stream) : (d.modStream n g).link = d.link := rfl
@[simp] theorem Dev.modStream_lwd (d : Dev) (n : Nat) (g : Stream → Stream) : (d.modStream n g).lwd = d.lwd := rfl
@[simp] theorem Dev.modStream_clk (d : Dev) (n : Nat) (g : Stream → Stream) : (d.modStream n g).clk = d.clk := rfl
@[simp] theorem Dev.modStream_sec (d : Dev) (n : Nat) (g : Stream → Stream) : (d.modStream n g).sec = d.sec := rfl
@[simp] theorem Dev.modStream_fns (d : Dev) (n : Nat) (g : Stream → Stream) : (d.modStream n g).fns = d.fns := rfl
@[simp] theorem Dev.modStream_queues (d : Dev) (n : Nat) (g : Stream → Stream) : (d.modStream n g).queues = d.queues := rfl
@[simp] theorem Dev.modStream_due (d : Dev) (n : Nat) (g : Stream → Stream) : (d.modStream n g).due = d.due := rfl
@[simp] theorem Dev.modStream_bus (d : Dev) (n : Nat) (g : Stream → Stream) : (d.modStream n g).bus = d.bus := rfl
@[simp] theorem Dev.modStream_charter (d : Dev) (n : Nat) (g : Stream → Stream) : (d.modStream n g).charter = d.charter := rfl
@[simp] theorem Dev.modStream_parts (d : Dev) (n : Nat) (g : Stream → Stream) : (d.modStream n g).parts = d.parts := rfl
@[simp] theorem Dev.modStream_ctxs (d : Dev) (n : Nat) (g : Stream → Stream) : (d.modStream n g).ctxs = d.ctxs := rfl
@[simp] theorem Dev.modStream_cores (d : Dev) (n : Nat) (g : Stream → Stream) : (d.modStream n g).cores = d.cores := rfl
@[simp] theorem Dev.modStream_wmk (d : Dev) (n : Nat) (g : Stream → Stream) : (d.modStream n g).wmk = d.wmk := rfl
@[simp] theorem Dev.modStream_depots (d : Dev) (n : Nat) (g : Stream → Stream) : (d.modStream n g).depots = d.depots := rfl
@[simp] theorem Dev.modStream_mem (d : Dev) (n : Nat) (g : Stream → Stream) : (d.modStream n g).mem = d.mem := rfl
@[simp] theorem Dev.modStream_video (d : Dev) (n : Nat) (g : Stream → Stream) : (d.modStream n g).video = { d.video with streams := modIf (·.id == n) g d.video.streams } := rfl
@[simp] theorem Dev.modStream_trk (d : Dev) (n : Nat) (g : Stream → Stream) : (d.modStream n g).trk = d.trk := rfl
@[simp] theorem Dev.modStream_vpt (d : Dev) (n : Nat) (g : Stream → Stream) : (d.modStream n g).vpt = d.vpt := rfl
@[simp] theorem Dev.modStream_dau (d : Dev) (n : Nat) (g : Stream → Stream) : (d.modStream n g).dau = d.dau := rfl

/-! ### Something leaves the block -/

@[simp] theorem Dev.emit_ticks (d : Dev) (o : BusOut) : (d.emit o).ticks = d.ticks := rfl
@[simp] theorem Dev.emit_run (d : Dev) (o : BusOut) : (d.emit o).run = d.run := rfl
@[simp] theorem Dev.emit_coreRun (d : Dev) (o : BusOut) : (d.emit o).coreRun = d.coreRun := rfl
@[simp] theorem Dev.emit_free (d : Dev) (o : BusOut) : (d.emit o).free = d.free := rfl
@[simp] theorem Dev.emit_fresh (d : Dev) (o : BusOut) : (d.emit o).fresh = d.fresh := rfl
@[simp] theorem Dev.emit_pins (d : Dev) (o : BusOut) : (d.emit o).pins = d.pins := rfl
@[simp] theorem Dev.emit_boot (d : Dev) (o : BusOut) : (d.emit o).boot = d.boot := rfl
@[simp] theorem Dev.emit_resetRefused (d : Dev) (o : BusOut) : (d.emit o).resetRefused = d.resetRefused := rfl
@[simp] theorem Dev.emit_link (d : Dev) (o : BusOut) : (d.emit o).link = d.link.carry o := rfl
@[simp] theorem Dev.emit_lwd (d : Dev) (o : BusOut) : (d.emit o).lwd = d.lwd := rfl
@[simp] theorem Dev.emit_clk (d : Dev) (o : BusOut) : (d.emit o).clk = d.clk := rfl
@[simp] theorem Dev.emit_sec (d : Dev) (o : BusOut) : (d.emit o).sec = d.sec := rfl
@[simp] theorem Dev.emit_fns (d : Dev) (o : BusOut) : (d.emit o).fns = d.fns := rfl
@[simp] theorem Dev.emit_queues (d : Dev) (o : BusOut) : (d.emit o).queues = d.queues := rfl
@[simp] theorem Dev.emit_due (d : Dev) (o : BusOut) : (d.emit o).due = d.due := rfl
@[simp] theorem Dev.emit_bus (d : Dev) (o : BusOut) : (d.emit o).bus = d.bus ++ [o] := rfl
@[simp] theorem Dev.emit_charter (d : Dev) (o : BusOut) : (d.emit o).charter = d.charter := rfl
@[simp] theorem Dev.emit_parts (d : Dev) (o : BusOut) : (d.emit o).parts = d.parts := rfl
@[simp] theorem Dev.emit_ctxs (d : Dev) (o : BusOut) : (d.emit o).ctxs = d.ctxs := rfl
@[simp] theorem Dev.emit_cores (d : Dev) (o : BusOut) : (d.emit o).cores = d.cores := rfl
@[simp] theorem Dev.emit_wmk (d : Dev) (o : BusOut) : (d.emit o).wmk = d.wmk := rfl
@[simp] theorem Dev.emit_depots (d : Dev) (o : BusOut) : (d.emit o).depots = d.depots := rfl
@[simp] theorem Dev.emit_mem (d : Dev) (o : BusOut) : (d.emit o).mem = d.mem := rfl
@[simp] theorem Dev.emit_video (d : Dev) (o : BusOut) : (d.emit o).video = d.video := rfl
@[simp] theorem Dev.emit_trk (d : Dev) (o : BusOut) : (d.emit o).trk = d.trk := rfl
@[simp] theorem Dev.emit_vpt (d : Dev) (o : BusOut) : (d.emit o).vpt = d.vpt := rfl
@[simp] theorem Dev.emit_dau (d : Dev) (o : BusOut) : (d.emit o).dau = d.dau := rfl

/-! ### The link wakes -/

@[simp] theorem Dev.wakeLink_ticks (d : Dev) : (d.wakeLink).ticks = d.ticks := rfl
@[simp] theorem Dev.wakeLink_run (d : Dev) : (d.wakeLink).run = d.run := rfl
@[simp] theorem Dev.wakeLink_coreRun (d : Dev) : (d.wakeLink).coreRun = d.coreRun := rfl
@[simp] theorem Dev.wakeLink_free (d : Dev) : (d.wakeLink).free = d.free := rfl
@[simp] theorem Dev.wakeLink_fresh (d : Dev) : (d.wakeLink).fresh = d.fresh := rfl
@[simp] theorem Dev.wakeLink_pins (d : Dev) : (d.wakeLink).pins = d.pins := rfl
@[simp] theorem Dev.wakeLink_boot (d : Dev) : (d.wakeLink).boot = d.boot := rfl
@[simp] theorem Dev.wakeLink_resetRefused (d : Dev) : (d.wakeLink).resetRefused = d.resetRefused := rfl
@[simp] theorem Dev.wakeLink_link (d : Dev) : (d.wakeLink).link = d.link.leaveL1 := rfl
@[simp] theorem Dev.wakeLink_lwd (d : Dev) : (d.wakeLink).lwd = d.lwd := rfl
@[simp] theorem Dev.wakeLink_clk (d : Dev) : (d.wakeLink).clk = d.clk := rfl
@[simp] theorem Dev.wakeLink_sec (d : Dev) : (d.wakeLink).sec = d.sec := rfl
@[simp] theorem Dev.wakeLink_fns (d : Dev) : (d.wakeLink).fns = d.fns := rfl
@[simp] theorem Dev.wakeLink_queues (d : Dev) : (d.wakeLink).queues = d.queues := rfl
@[simp] theorem Dev.wakeLink_due (d : Dev) : (d.wakeLink).due = d.due := rfl
@[simp] theorem Dev.wakeLink_bus (d : Dev) : (d.wakeLink).bus = d.bus := rfl
@[simp] theorem Dev.wakeLink_charter (d : Dev) : (d.wakeLink).charter = d.charter := rfl
@[simp] theorem Dev.wakeLink_parts (d : Dev) : (d.wakeLink).parts = d.parts := rfl
@[simp] theorem Dev.wakeLink_ctxs (d : Dev) : (d.wakeLink).ctxs = d.ctxs := rfl
@[simp] theorem Dev.wakeLink_cores (d : Dev) : (d.wakeLink).cores = d.cores := rfl
@[simp] theorem Dev.wakeLink_wmk (d : Dev) : (d.wakeLink).wmk = d.wmk := rfl
@[simp] theorem Dev.wakeLink_depots (d : Dev) : (d.wakeLink).depots = d.depots := rfl
@[simp] theorem Dev.wakeLink_mem (d : Dev) : (d.wakeLink).mem = d.mem := rfl
@[simp] theorem Dev.wakeLink_video (d : Dev) : (d.wakeLink).video = d.video := rfl
@[simp] theorem Dev.wakeLink_trk (d : Dev) : (d.wakeLink).trk = d.trk := rfl
@[simp] theorem Dev.wakeLink_vpt (d : Dev) : (d.wakeLink).vpt = d.vpt := rfl
@[simp] theorem Dev.wakeLink_dau (d : Dev) : (d.wakeLink).dau = d.dau := rfl

/-! ### An event sets a status bit -/

@[simp] theorem Dev.fire_ticks (d : Dev) (b : W1cBit) : (d.fire b).ticks = d.ticks := rfl
@[simp] theorem Dev.fire_run (d : Dev) (b : W1cBit) : (d.fire b).run = d.run := rfl
@[simp] theorem Dev.fire_coreRun (d : Dev) (b : W1cBit) : (d.fire b).coreRun = d.coreRun := rfl
@[simp] theorem Dev.fire_free (d : Dev) (b : W1cBit) : (d.fire b).free = d.free := rfl
@[simp] theorem Dev.fire_fresh (d : Dev) (b : W1cBit) : (d.fire b).fresh = b :: d.fresh := rfl
@[simp] theorem Dev.fire_pins (d : Dev) (b : W1cBit) : (d.fire b).pins = d.pins := rfl
@[simp] theorem Dev.fire_boot (d : Dev) (b : W1cBit) : (d.fire b).boot = d.boot := rfl
@[simp] theorem Dev.fire_resetRefused (d : Dev) (b : W1cBit) : (d.fire b).resetRefused = d.resetRefused := rfl
@[simp] theorem Dev.fire_link (d : Dev) (b : W1cBit) : (d.fire b).link = d.link := rfl
@[simp] theorem Dev.fire_lwd (d : Dev) (b : W1cBit) : (d.fire b).lwd = d.lwd := rfl
@[simp] theorem Dev.fire_clk (d : Dev) (b : W1cBit) : (d.fire b).clk = d.clk := rfl
@[simp] theorem Dev.fire_sec (d : Dev) (b : W1cBit) : (d.fire b).sec = d.sec := rfl
@[simp] theorem Dev.fire_fns (d : Dev) (b : W1cBit) : (d.fire b).fns = d.fns := rfl
@[simp] theorem Dev.fire_queues (d : Dev) (b : W1cBit) : (d.fire b).queues = d.queues := rfl
@[simp] theorem Dev.fire_due (d : Dev) (b : W1cBit) : (d.fire b).due = d.due := rfl
@[simp] theorem Dev.fire_bus (d : Dev) (b : W1cBit) : (d.fire b).bus = d.bus := rfl
@[simp] theorem Dev.fire_charter (d : Dev) (b : W1cBit) : (d.fire b).charter = d.charter := rfl
@[simp] theorem Dev.fire_parts (d : Dev) (b : W1cBit) : (d.fire b).parts = d.parts := rfl
@[simp] theorem Dev.fire_ctxs (d : Dev) (b : W1cBit) : (d.fire b).ctxs = d.ctxs := rfl
@[simp] theorem Dev.fire_cores (d : Dev) (b : W1cBit) : (d.fire b).cores = d.cores := rfl
@[simp] theorem Dev.fire_wmk (d : Dev) (b : W1cBit) : (d.fire b).wmk = d.wmk := rfl
@[simp] theorem Dev.fire_depots (d : Dev) (b : W1cBit) : (d.fire b).depots = d.depots := rfl
@[simp] theorem Dev.fire_mem (d : Dev) (b : W1cBit) : (d.fire b).mem = d.mem := rfl
@[simp] theorem Dev.fire_video (d : Dev) (b : W1cBit) : (d.fire b).video = d.video := rfl
@[simp] theorem Dev.fire_trk (d : Dev) (b : W1cBit) : (d.fire b).trk = d.trk := rfl
@[simp] theorem Dev.fire_vpt (d : Dev) (b : W1cBit) : (d.fire b).vpt = d.vpt := rfl
@[simp] theorem Dev.fire_dau (d : Dev) (b : W1cBit) : (d.fire b).dau = d.dau := rfl

/-! ### A command register stays BUSY -/

@[simp] theorem Dev.busyFor_ticks (d : Dev) (f : Nat) (p : CmdPort) (us n : Nat) : (d.busyFor f p us n).ticks = d.ticks := rfl
@[simp] theorem Dev.busyFor_run (d : Dev) (f : Nat) (p : CmdPort) (us n : Nat) : (d.busyFor f p us n).run = d.run := rfl
@[simp] theorem Dev.busyFor_coreRun (d : Dev) (f : Nat) (p : CmdPort) (us n : Nat) : (d.busyFor f p us n).coreRun = d.coreRun := rfl
@[simp] theorem Dev.busyFor_free (d : Dev) (f : Nat) (p : CmdPort) (us n : Nat) : (d.busyFor f p us n).free = d.free := rfl
@[simp] theorem Dev.busyFor_fresh (d : Dev) (f : Nat) (p : CmdPort) (us n : Nat) : (d.busyFor f p us n).fresh = d.fresh := rfl
@[simp] theorem Dev.busyFor_pins (d : Dev) (f : Nat) (p : CmdPort) (us n : Nat) : (d.busyFor f p us n).pins = d.pins := rfl
@[simp] theorem Dev.busyFor_boot (d : Dev) (f : Nat) (p : CmdPort) (us n : Nat) : (d.busyFor f p us n).boot = d.boot := rfl
@[simp] theorem Dev.busyFor_resetRefused (d : Dev) (f : Nat) (p : CmdPort) (us n : Nat) : (d.busyFor f p us n).resetRefused = d.resetRefused := rfl
@[simp] theorem Dev.busyFor_link (d : Dev) (f : Nat) (p : CmdPort) (us n : Nat) : (d.busyFor f p us n).link = d.link := rfl
@[simp] theorem Dev.busyFor_lwd (d : Dev) (f : Nat) (p : CmdPort) (us n : Nat) : (d.busyFor f p us n).lwd = d.lwd := rfl
@[simp] theorem Dev.busyFor_clk (d : Dev) (f : Nat) (p : CmdPort) (us n : Nat) : (d.busyFor f p us n).clk = d.clk := rfl
@[simp] theorem Dev.busyFor_sec (d : Dev) (f : Nat) (p : CmdPort) (us n : Nat) : (d.busyFor f p us n).sec = d.sec := rfl
@[simp] theorem Dev.busyFor_queues (d : Dev) (f : Nat) (p : CmdPort) (us n : Nat) : (d.busyFor f p us n).queues = d.queues := rfl
@[simp] theorem Dev.busyFor_due (d : Dev) (f : Nat) (p : CmdPort) (us n : Nat) : (d.busyFor f p us n).due = d.due := rfl
@[simp] theorem Dev.busyFor_bus (d : Dev) (f : Nat) (p : CmdPort) (us n : Nat) : (d.busyFor f p us n).bus = d.bus := rfl
@[simp] theorem Dev.busyFor_charter (d : Dev) (f : Nat) (p : CmdPort) (us n : Nat) : (d.busyFor f p us n).charter = d.charter := rfl
@[simp] theorem Dev.busyFor_parts (d : Dev) (f : Nat) (p : CmdPort) (us n : Nat) : (d.busyFor f p us n).parts = d.parts := rfl
@[simp] theorem Dev.busyFor_ctxs (d : Dev) (f : Nat) (p : CmdPort) (us n : Nat) : (d.busyFor f p us n).ctxs = d.ctxs := rfl
@[simp] theorem Dev.busyFor_cores (d : Dev) (f : Nat) (p : CmdPort) (us n : Nat) : (d.busyFor f p us n).cores = d.cores := rfl
@[simp] theorem Dev.busyFor_wmk (d : Dev) (f : Nat) (p : CmdPort) (us n : Nat) : (d.busyFor f p us n).wmk = d.wmk := rfl
@[simp] theorem Dev.busyFor_depots (d : Dev) (f : Nat) (p : CmdPort) (us n : Nat) : (d.busyFor f p us n).depots = d.depots := rfl
@[simp] theorem Dev.busyFor_mem (d : Dev) (f : Nat) (p : CmdPort) (us n : Nat) : (d.busyFor f p us n).mem = d.mem := rfl
@[simp] theorem Dev.busyFor_video (d : Dev) (f : Nat) (p : CmdPort) (us n : Nat) : (d.busyFor f p us n).video = d.video := rfl
@[simp] theorem Dev.busyFor_trk (d : Dev) (f : Nat) (p : CmdPort) (us n : Nat) : (d.busyFor f p us n).trk = d.trk := rfl
@[simp] theorem Dev.busyFor_vpt (d : Dev) (f : Nat) (p : CmdPort) (us n : Nat) : (d.busyFor f p us n).vpt = d.vpt := rfl
@[simp] theorem Dev.busyFor_dau (d : Dev) (f : Nat) (p : CmdPort) (us n : Nat) : (d.busyFor f p us n).dau = d.dau := rfl

/-! ### One root-PLL cycle -/

@[simp] theorem tick_ticks (d : Dev) : (tick d).ticks = d.ticks + 1 := rfl
@[simp] theorem tick_free (d : Dev) : (tick d).free = d.free := rfl
@[simp] theorem tick_fresh (d : Dev) : (tick d).fresh = [] := rfl
@[simp] theorem tick_pins (d : Dev) : (tick d).pins = d.pins := rfl
@[simp] theorem tick_boot (d : Dev) : (tick d).boot = d.boot := rfl
@[simp] theorem tick_resetRefused (d : Dev) : (tick d).resetRefused = d.resetRefused := rfl
@[simp] theorem tick_link (d : Dev) : (tick d).link = d.link := rfl
@[simp] theorem tick_clk (d : Dev) : (tick d).clk = d.clk := rfl
@[simp] theorem tick_sec (d : Dev) : (tick d).sec = d.sec := rfl
@[simp] theorem tick_fns (d : Dev) : (tick d).fns = d.fns := rfl
@[simp] theorem tick_queues (d : Dev) : (tick d).queues = d.queues := rfl
@[simp] theorem tick_due (d : Dev) : (tick d).due = d.due := rfl
@[simp] theorem tick_bus (d : Dev) : (tick d).bus = d.bus := rfl
@[simp] theorem tick_charter (d : Dev) : (tick d).charter = d.charter := rfl
@[simp] theorem tick_parts (d : Dev) : (tick d).parts = d.parts := rfl
@[simp] theorem tick_ctxs (d : Dev) : (tick d).ctxs = d.ctxs := rfl
@[simp] theorem tick_cores (d : Dev) : (tick d).cores = d.cores := rfl
@[simp] theorem tick_wmk (d : Dev) : (tick d).wmk = d.wmk := rfl
@[simp] theorem tick_depots (d : Dev) : (tick d).depots = d.depots := rfl
@[simp] theorem tick_mem (d : Dev) : (tick d).mem = d.mem := rfl
@[simp] theorem tick_video (d : Dev) : (tick d).video = d.video := rfl
@[simp] theorem tick_trk (d : Dev) : (tick d).trk = d.trk := rfl
@[simp] theorem tick_vpt (d : Dev) : (tick d).vpt = d.vpt := rfl
@[simp] theorem tick_dau (d : Dev) : (tick d).dau = d.dau := rfl

/-! ### A free value is drawn -/

@[simp] theorem drawFree_ticks (d : Dev) : (drawFree d).2.ticks = d.ticks := rfl
@[simp] theorem drawFree_run (d : Dev) : (drawFree d).2.run = d.run := rfl
@[simp] theorem drawFree_coreRun (d : Dev) : (drawFree d).2.coreRun = d.coreRun := rfl
@[simp] theorem drawFree_free (d : Dev) : (drawFree d).2.free = d.free + 1 := rfl
@[simp] theorem drawFree_fresh (d : Dev) : (drawFree d).2.fresh = d.fresh := rfl
@[simp] theorem drawFree_pins (d : Dev) : (drawFree d).2.pins = d.pins := rfl
@[simp] theorem drawFree_boot (d : Dev) : (drawFree d).2.boot = d.boot := rfl
@[simp] theorem drawFree_resetRefused (d : Dev) : (drawFree d).2.resetRefused = d.resetRefused := rfl
@[simp] theorem drawFree_link (d : Dev) : (drawFree d).2.link = d.link := rfl
@[simp] theorem drawFree_lwd (d : Dev) : (drawFree d).2.lwd = d.lwd := rfl
@[simp] theorem drawFree_clk (d : Dev) : (drawFree d).2.clk = d.clk := rfl
@[simp] theorem drawFree_sec (d : Dev) : (drawFree d).2.sec = d.sec := rfl
@[simp] theorem drawFree_fns (d : Dev) : (drawFree d).2.fns = d.fns := rfl
@[simp] theorem drawFree_queues (d : Dev) : (drawFree d).2.queues = d.queues := rfl
@[simp] theorem drawFree_due (d : Dev) : (drawFree d).2.due = d.due := rfl
@[simp] theorem drawFree_bus (d : Dev) : (drawFree d).2.bus = d.bus := rfl
@[simp] theorem drawFree_charter (d : Dev) : (drawFree d).2.charter = d.charter := rfl
@[simp] theorem drawFree_parts (d : Dev) : (drawFree d).2.parts = d.parts := rfl
@[simp] theorem drawFree_ctxs (d : Dev) : (drawFree d).2.ctxs = d.ctxs := rfl
@[simp] theorem drawFree_cores (d : Dev) : (drawFree d).2.cores = d.cores := rfl
@[simp] theorem drawFree_wmk (d : Dev) : (drawFree d).2.wmk = d.wmk := rfl
@[simp] theorem drawFree_depots (d : Dev) : (drawFree d).2.depots = d.depots := rfl
@[simp] theorem drawFree_mem (d : Dev) : (drawFree d).2.mem = d.mem := rfl
@[simp] theorem drawFree_video (d : Dev) : (drawFree d).2.video = d.video := rfl
@[simp] theorem drawFree_trk (d : Dev) : (drawFree d).2.trk = d.trk := rfl
@[simp] theorem drawFree_vpt (d : Dev) : (drawFree d).2.vpt = d.vpt := rfl
@[simp] theorem drawFree_dau (d : Dev) : (drawFree d).2.dau = d.dau := rfl

end Sys2Proof.Machine
end

