-- ==== Sys2Proof/Laws/Ops.lean ====
section
/-! SUPPORT. What the shared operations can do, said once: the three outcomes of a row, the ways a host access is answered,
and the places of the device's lists that an update changes. -/

namespace Sys2Proof.Machine

/-! ### Outcomes -/

theorem whenDue_due {row : String} {due : Bool} (h : due = true) (s : State) (f : Dev → Dev) :
    whenDue row due s f = .next (s.withDev (f s.dev)) := by simp [whenDue, h]

theorem whenDue_notDue {row : String} {due : Bool} (h : due = false) (s : State) (f : Dev → Dev) :
    whenDue row due s f = .refused (.eventNotDue row) := by simp [whenDue, h]

/-- An event answers a next state exactly where it is due, and then its effect on the device. -/
theorem whenDue_next_iff {row : String} {due : Bool} {s t : State} {f : Dev → Dev} :
    whenDue row due s f = .next t ↔ due = true ∧ t = s.withDev (f s.dev) := by
  cases due <;> simp [whenDue, eq_comm]

theorem whenDue_ne_fault {row : String} {due : Bool} {s : State} {f : Dev → Dev} {r : Fault} :
    whenDue row due s f ≠ .fault r := by
  cases due <;> simp [whenDue]

theorem always_next_iff {s t : State} {f : Dev → Dev} : always s f = .next t ↔ t = s.withDev (f s.dev) := by
  simp [always, eq_comm]

theorem always_ne_fault {s : State} {f : Dev → Dev} {r : Fault} : always s f ≠ .fault r := by simp [always]

/-! ### Places of lists -/

theorem modAt_length {α : Type} (f : α → α) : ∀ (i : Nat) (l : List α), (modAt f i l).length = l.length
  | _, [] => by cases ‹Nat› <;> rfl
  | 0, _ :: _ => rfl
  | i + 1, _ :: l => by simp [modAt, modAt_length f i l]

theorem modAt_same {α : Type} (f : α → α) : ∀ (i : Nat) (l : List α), (modAt f i l)[i]? = l[i]?.map f
  | _, [] => by cases ‹Nat› <;> rfl
  | 0, _ :: _ => rfl
  | i + 1, _ :: l => by simpa [modAt] using modAt_same f i l

theorem modAt_ne {α : Type} (f : α → α) : ∀ (i j : Nat) (l : List α), i ≠ j → (modAt f i l)[j]? = l[j]?
  | i, _, [], _ => by cases i <;> rfl
  | 0, 0, _ :: _, h => absurd rfl h
  | 0, j + 1, _ :: _, _ => by simp [modAt]
  | i + 1, 0, _ :: _, _ => by simp [modAt]
  | i + 1, j + 1, _ :: l, h => by simpa [modAt] using modAt_ne f i j l (by omega)

/-- Updates that keep what a search looks at keep what it finds. -/
theorem find_modIf {α : Type} (p q : α → Bool) (f : α → α) (h : ∀ x, p (f x) = p x) :
    ∀ l : List α, (modIf q f l).find? p = (l.find? p).map fun x => if q x then f x else x
  | [] => rfl
  | x :: l => by
    have hp : p (if q x then f x else x) = p x := by split <;> simp [h]
    have ih := find_modIf p q f h l
    simp only [modIf, List.map_cons] at ih ⊢
    by_cases hx : p x = true
    · rw [List.find?_cons_of_pos (by rw [hp]; exact hx), List.find?_cons_of_pos hx]; rfl
    · rw [List.find?_cons_of_neg (by rw [hp]; exact hx), List.find?_cons_of_neg hx, ih]

/-- The function a change names, among those the device has. -/
theorem Dev.fn_modFn_same (d : Dev) (f : Nat) (g : Fn → Fn) (h : f < d.fns.length) :
    (d.modFn f g).fn f = g (d.fn f) := by
  simp [Dev.fn, modAt_same, List.getElem?_eq_getElem h]

theorem Dev.fn_modFn_ne (d : Dev) {f k : Nat} (g : Fn → Fn) (h : f ≠ k) : (d.modFn f g).fn k = d.fn k := by
  simp [Dev.fn, modAt_ne g f k d.fns h]

theorem Dev.core_modCore_same (d : Dev) (c : Nat) (g : Core → Core) (h : c < d.cores.length) :
    (d.modCore c g).core c = g (d.core c) := by
  simp [Dev.core, modAt_same, List.getElem?_eq_getElem h]

theorem Dev.core_modCore_ne (d : Dev) {c k : Nat} (g : Core → Core) (h : c ≠ k) : (d.modCore c g).core k = d.core k := by
  simp [Dev.core, modAt_ne g c k d.cores h]

/-- A change that keeps jobs' numbers: the context of the job it names. -/
theorem Dev.ctx_modCtx_same (d : Dev) (j : Nat) (g : Ctx → Ctx) (h : ∀ x, (g x).entry.id = x.entry.id) :
    (d.modCtx j g).ctx? j = (d.ctx? j).map g := by
  have := find_modIf (fun x : Ctx => x.entry.id == j) (fun x => x.entry.id == j) g (by intro x; simp [h]) d.ctxs
  simp only [Dev.ctx?, Dev.modCtx_ctxs]
  rw [this]
  cases hx : d.ctxs.find? (fun x => x.entry.id == j) with
  | none => rfl
  | some x =>
    have hk : x.entry.id = j := by simpa using List.find?_some hx
    simp [hk]

theorem Dev.ctx_modCtx_ne (d : Dev) {j k : Nat} (g : Ctx → Ctx) (h : ∀ x, (g x).entry.id = x.entry.id) (hjk : j ≠ k) :
    (d.modCtx j g).ctx? k = d.ctx? k := by
  have := find_modIf (fun x : Ctx => x.entry.id == k) (fun x => x.entry.id == j) g (by intro x; simp [h]) d.ctxs
  simp only [Dev.ctx?, Dev.modCtx_ctxs]
  rw [this]
  cases hx : d.ctxs.find? (fun x => x.entry.id == k) with
  | none => rfl
  | some x =>
    have hk : x.entry.id = k := by simpa using List.find?_some hx
    simp [hk, Ne.symm hjk]

/-! ### Host accesses -/

@[simp] theorem Dev.wakeLink_fn (d : Dev) (f : Nat) : d.wakeLink.fn f = d.fn f := rfl

/-- A register write of an absent function reaches nothing but the link (R433). -/
theorem Dev.access_absent (d : Dev) (f : Nat) (p : Page) (k : Dev → Dev) (h : (d.fn f).present = false) :
    d.access f p k = d.wakeLink := by simp [Dev.access, h]

/-- With memory space disabled, or in D3hot, a write is an Unsupported Request: logged, no effect (R437, R456). -/
theorem Dev.access_closed (d : Dev) (f : Nat) (p : Page) (k : Dev → Dev) (h : (d.fn f).present = true)
    (hm : (d.fn f).mse = false ∨ (d.fn f).d3 = true) :
    d.access f p k = d.wakeLink.logError f 5 0 0 := by
  rcases hm with hm | hm <;> simp [Dev.access, h, hm]

/-- A write that the page serves has its register's effect. -/
theorem Dev.access_served (d : Dev) (f : Nat) (p : Page) (k : Dev → Dev) (h : (d.fn f).present = true)
    (hm : (d.fn f).mse = true) (h3 : (d.fn f).d3 = false) (hs : d.wakeLink.serves f p = true) :
    d.access f p k = k d.wakeLink := by simp [Dev.access, h, hm, h3, hs]

end Sys2Proof.Machine
end

