-- ==== Sys2Proof/Laws/Frames.lean ====
section
/-! SUPPORT. Frames of the shared operations: for each, the fields of the device it never changes, as simp lemmas. What an
operation does change is in its definition. -/

namespace Sys2Proof.Machine

open Sys2Proof

@[simp] theorem Dev.emit_frame (d : Dev) (o : BusOut) :
    (Dev.emit d o).ticks = d.ticks ∧ (Dev.emit d o).run = d.run ∧ (Dev.emit d o).coreRun = d.coreRun ∧ (Dev.emit d
    o).fresh = d.fresh ∧ (Dev.emit d o).free = d.free ∧ (Dev.emit d o).pins = d.pins ∧ (Dev.emit d o).boot =
    d.boot ∧ (Dev.emit d o).resetRefused = d.resetRefused ∧ (Dev.emit d o).lwd = d.lwd ∧ (Dev.emit d o).clk =
    d.clk ∧ (Dev.emit d o).sec = d.sec ∧ (Dev.emit d o).fns = d.fns ∧ (Dev.emit d o).queues = d.queues ∧ (Dev.emit
    d o).due = d.due ∧ (Dev.emit d o).charter = d.charter ∧ (Dev.emit d o).parts = d.parts ∧ (Dev.emit d o).ctxs =
    d.ctxs ∧ (Dev.emit d o).cores = d.cores ∧ (Dev.emit d o).wmk = d.wmk ∧ (Dev.emit d o).depots = d.depots ∧
    (Dev.emit d o).mem = d.mem ∧ (Dev.emit d o).video = d.video ∧ (Dev.emit d o).trk = d.trk ∧ (Dev.emit d o).vpt
    = d.vpt ∧ (Dev.emit d o).dau = d.dau := by
  unfold Dev.emit
  (repeat' apply And.intro) <;> rfl

@[simp] theorem Dev.wakeLink_frame (d : Dev) :
    (Dev.wakeLink d).ticks = d.ticks ∧ (Dev.wakeLink d).run = d.run ∧ (Dev.wakeLink d).coreRun = d.coreRun ∧
    (Dev.wakeLink d).fresh = d.fresh ∧ (Dev.wakeLink d).free = d.free ∧ (Dev.wakeLink d).pins = d.pins ∧
    (Dev.wakeLink d).boot = d.boot ∧ (Dev.wakeLink d).resetRefused = d.resetRefused ∧ (Dev.wakeLink d).lwd = d.lwd
    ∧ (Dev.wakeLink d).clk = d.clk ∧ (Dev.wakeLink d).sec = d.sec ∧ (Dev.wakeLink d).fns = d.fns ∧ (Dev.wakeLink
    d).queues = d.queues ∧ (Dev.wakeLink d).due = d.due ∧ (Dev.wakeLink d).bus = d.bus ∧ (Dev.wakeLink d).charter
    = d.charter ∧ (Dev.wakeLink d).parts = d.parts ∧ (Dev.wakeLink d).ctxs = d.ctxs ∧ (Dev.wakeLink d).cores =
    d.cores ∧ (Dev.wakeLink d).wmk = d.wmk ∧ (Dev.wakeLink d).depots = d.depots ∧ (Dev.wakeLink d).mem = d.mem ∧
    (Dev.wakeLink d).video = d.video ∧ (Dev.wakeLink d).trk = d.trk ∧ (Dev.wakeLink d).vpt = d.vpt ∧ (Dev.wakeLink
    d).dau = d.dau := by
  unfold Dev.wakeLink
  (repeat' apply And.intro) <;> rfl

@[simp] theorem Dev.ownerWrite_frame (d : Dev) (o a : Nat) (bs : List Byte) :
    (Dev.ownerWrite d o a bs).ticks = d.ticks ∧ (Dev.ownerWrite d o a bs).run = d.run ∧ (Dev.ownerWrite d o a
    bs).coreRun = d.coreRun ∧ (Dev.ownerWrite d o a bs).fresh = d.fresh ∧ (Dev.ownerWrite d o a bs).free = d.free
    ∧ (Dev.ownerWrite d o a bs).pins = d.pins ∧ (Dev.ownerWrite d o a bs).boot = d.boot ∧ (Dev.ownerWrite d o a
    bs).resetRefused = d.resetRefused ∧ (Dev.ownerWrite d o a bs).link = d.link ∧ (Dev.ownerWrite d o a bs).lwd =
    d.lwd ∧ (Dev.ownerWrite d o a bs).clk = d.clk ∧ (Dev.ownerWrite d o a bs).sec = d.sec ∧ (Dev.ownerWrite d o a
    bs).fns = d.fns ∧ (Dev.ownerWrite d o a bs).queues = d.queues ∧ (Dev.ownerWrite d o a bs).due = d.due ∧
    (Dev.ownerWrite d o a bs).bus = d.bus ∧ (Dev.ownerWrite d o a bs).charter = d.charter ∧ (Dev.ownerWrite d o a
    bs).parts = d.parts ∧ (Dev.ownerWrite d o a bs).ctxs = d.ctxs ∧ (Dev.ownerWrite d o a bs).cores = d.cores ∧
    (Dev.ownerWrite d o a bs).wmk = d.wmk ∧ (Dev.ownerWrite d o a bs).depots = d.depots ∧ (Dev.ownerWrite d o a
    bs).video = d.video ∧ (Dev.ownerWrite d o a bs).trk = d.trk ∧ (Dev.ownerWrite d o a bs).vpt = d.vpt ∧
    (Dev.ownerWrite d o a bs).dau = d.dau := by
  unfold Dev.ownerWrite
  (repeat' apply And.intro) <;> rfl

@[simp] theorem Dev.commonWrite_frame (d : Dev) (f off : Nat) (bs : List Byte) :
    (Dev.commonWrite d f off bs).ticks = d.ticks ∧ (Dev.commonWrite d f off bs).run = d.run ∧ (Dev.commonWrite d f
    off bs).coreRun = d.coreRun ∧ (Dev.commonWrite d f off bs).fresh = d.fresh ∧ (Dev.commonWrite d f off bs).free
    = d.free ∧ (Dev.commonWrite d f off bs).pins = d.pins ∧ (Dev.commonWrite d f off bs).boot = d.boot ∧
    (Dev.commonWrite d f off bs).resetRefused = d.resetRefused ∧ (Dev.commonWrite d f off bs).link = d.link ∧
    (Dev.commonWrite d f off bs).lwd = d.lwd ∧ (Dev.commonWrite d f off bs).clk = d.clk ∧ (Dev.commonWrite d f off
    bs).sec = d.sec ∧ (Dev.commonWrite d f off bs).fns = d.fns ∧ (Dev.commonWrite d f off bs).queues = d.queues ∧
    (Dev.commonWrite d f off bs).due = d.due ∧ (Dev.commonWrite d f off bs).bus = d.bus ∧ (Dev.commonWrite d f off
    bs).charter = d.charter ∧ (Dev.commonWrite d f off bs).parts = d.parts ∧ (Dev.commonWrite d f off bs).ctxs =
    d.ctxs ∧ (Dev.commonWrite d f off bs).cores = d.cores ∧ (Dev.commonWrite d f off bs).wmk = d.wmk ∧
    (Dev.commonWrite d f off bs).depots = d.depots ∧ (Dev.commonWrite d f off bs).video = d.video ∧
    (Dev.commonWrite d f off bs).trk = d.trk ∧ (Dev.commonWrite d f off bs).vpt = d.vpt ∧ (Dev.commonWrite d f off
    bs).dau = d.dau := by
  unfold Dev.commonWrite
  (repeat' apply And.intro) <;> rfl

@[simp] theorem Dev.bufWrite_frame (d : Dev) (dep : Depot) (ix off : Nat) (bs : List Byte) :
    (Dev.bufWrite d dep ix off bs).ticks = d.ticks ∧ (Dev.bufWrite d dep ix off bs).run = d.run ∧ (Dev.bufWrite d
    dep ix off bs).coreRun = d.coreRun ∧ (Dev.bufWrite d dep ix off bs).fresh = d.fresh ∧ (Dev.bufWrite d dep ix
    off bs).free = d.free ∧ (Dev.bufWrite d dep ix off bs).pins = d.pins ∧ (Dev.bufWrite d dep ix off bs).boot =
    d.boot ∧ (Dev.bufWrite d dep ix off bs).resetRefused = d.resetRefused ∧ (Dev.bufWrite d dep ix off bs).link =
    d.link ∧ (Dev.bufWrite d dep ix off bs).lwd = d.lwd ∧ (Dev.bufWrite d dep ix off bs).clk = d.clk ∧
    (Dev.bufWrite d dep ix off bs).sec = d.sec ∧ (Dev.bufWrite d dep ix off bs).fns = d.fns ∧ (Dev.bufWrite d dep
    ix off bs).queues = d.queues ∧ (Dev.bufWrite d dep ix off bs).due = d.due ∧ (Dev.bufWrite d dep ix off bs).bus
    = d.bus ∧ (Dev.bufWrite d dep ix off bs).charter = d.charter ∧ (Dev.bufWrite d dep ix off bs).parts = d.parts
    ∧ (Dev.bufWrite d dep ix off bs).ctxs = d.ctxs ∧ (Dev.bufWrite d dep ix off bs).cores = d.cores ∧
    (Dev.bufWrite d dep ix off bs).wmk = d.wmk ∧ (Dev.bufWrite d dep ix off bs).depots = d.depots ∧ (Dev.bufWrite
    d dep ix off bs).video = d.video ∧ (Dev.bufWrite d dep ix off bs).trk = d.trk ∧ (Dev.bufWrite d dep ix off
    bs).vpt = d.vpt ∧ (Dev.bufWrite d dep ix off bs).dau = d.dau := by
  unfold Dev.bufWrite
  (repeat' apply And.intro) <;> (repeat' split) <;> rfl

@[simp] theorem Dev.raiseVec_frame (d : Dev) (f v : Nat) :
    (Dev.raiseVec d f v).ticks = d.ticks ∧ (Dev.raiseVec d f v).run = d.run ∧ (Dev.raiseVec d f v).coreRun =
    d.coreRun ∧ (Dev.raiseVec d f v).fresh = d.fresh ∧ (Dev.raiseVec d f v).free = d.free ∧ (Dev.raiseVec d f
    v).pins = d.pins ∧ (Dev.raiseVec d f v).boot = d.boot ∧ (Dev.raiseVec d f v).resetRefused = d.resetRefused ∧
    (Dev.raiseVec d f v).lwd = d.lwd ∧ (Dev.raiseVec d f v).clk = d.clk ∧ (Dev.raiseVec d f v).sec = d.sec ∧
    (Dev.raiseVec d f v).queues = d.queues ∧ (Dev.raiseVec d f v).due = d.due ∧ (Dev.raiseVec d f v).charter =
    d.charter ∧ (Dev.raiseVec d f v).parts = d.parts ∧ (Dev.raiseVec d f v).ctxs = d.ctxs ∧ (Dev.raiseVec d f
    v).cores = d.cores ∧ (Dev.raiseVec d f v).wmk = d.wmk ∧ (Dev.raiseVec d f v).depots = d.depots ∧ (Dev.raiseVec
    d f v).mem = d.mem ∧ (Dev.raiseVec d f v).video = d.video ∧ (Dev.raiseVec d f v).trk = d.trk ∧ (Dev.raiseVec d
    f v).vpt = d.vpt ∧ (Dev.raiseVec d f v).dau = d.dau := by
  unfold Dev.raiseVec
  (repeat' apply And.intro) <;> (repeat' split) <;> rfl

@[simp] theorem Dev.raiseEvent_frame (d : Dev) (f k : Nat) :
    (Dev.raiseEvent d f k).ticks = d.ticks ∧ (Dev.raiseEvent d f k).run = d.run ∧ (Dev.raiseEvent d f k).coreRun =
    d.coreRun ∧ (Dev.raiseEvent d f k).fresh = d.fresh ∧ (Dev.raiseEvent d f k).free = d.free ∧ (Dev.raiseEvent d
    f k).pins = d.pins ∧ (Dev.raiseEvent d f k).boot = d.boot ∧ (Dev.raiseEvent d f k).resetRefused =
    d.resetRefused ∧ (Dev.raiseEvent d f k).lwd = d.lwd ∧ (Dev.raiseEvent d f k).clk = d.clk ∧ (Dev.raiseEvent d f
    k).sec = d.sec ∧ (Dev.raiseEvent d f k).queues = d.queues ∧ (Dev.raiseEvent d f k).due = d.due ∧
    (Dev.raiseEvent d f k).charter = d.charter ∧ (Dev.raiseEvent d f k).parts = d.parts ∧ (Dev.raiseEvent d f
    k).ctxs = d.ctxs ∧ (Dev.raiseEvent d f k).cores = d.cores ∧ (Dev.raiseEvent d f k).wmk = d.wmk ∧
    (Dev.raiseEvent d f k).depots = d.depots ∧ (Dev.raiseEvent d f k).mem = d.mem ∧ (Dev.raiseEvent d f k).video =
    d.video ∧ (Dev.raiseEvent d f k).trk = d.trk ∧ (Dev.raiseEvent d f k).vpt = d.vpt ∧ (Dev.raiseEvent d f k).dau
    = d.dau := by
  unfold Dev.raiseEvent
  (repeat' apply And.intro) <;> simp

@[simp] theorem Dev.logError_frame (d : Dev) (f kind queue detail : Nat) :
    (Dev.logError d f kind queue detail).ticks = d.ticks ∧ (Dev.logError d f kind queue detail).run = d.run ∧
    (Dev.logError d f kind queue detail).coreRun = d.coreRun ∧ (Dev.logError d f kind queue detail).fresh =
    d.fresh ∧ (Dev.logError d f kind queue detail).free = d.free ∧ (Dev.logError d f kind queue detail).pins =
    d.pins ∧ (Dev.logError d f kind queue detail).boot = d.boot ∧ (Dev.logError d f kind queue
    detail).resetRefused = d.resetRefused ∧ (Dev.logError d f kind queue detail).link = d.link ∧ (Dev.logError d f
    kind queue detail).lwd = d.lwd ∧ (Dev.logError d f kind queue detail).clk = d.clk ∧ (Dev.logError d f kind
    queue detail).sec = d.sec ∧ (Dev.logError d f kind queue detail).queues = d.queues ∧ (Dev.logError d f kind
    queue detail).due = d.due ∧ (Dev.logError d f kind queue detail).bus = d.bus ∧ (Dev.logError d f kind queue
    detail).charter = d.charter ∧ (Dev.logError d f kind queue detail).parts = d.parts ∧ (Dev.logError d f kind
    queue detail).ctxs = d.ctxs ∧ (Dev.logError d f kind queue detail).cores = d.cores ∧ (Dev.logError d f kind
    queue detail).wmk = d.wmk ∧ (Dev.logError d f kind queue detail).depots = d.depots ∧ (Dev.logError d f kind
    queue detail).mem = d.mem ∧ (Dev.logError d f kind queue detail).video = d.video ∧ (Dev.logError d f kind
    queue detail).trk = d.trk ∧ (Dev.logError d f kind queue detail).vpt = d.vpt ∧ (Dev.logError d f kind queue
    detail).dau = d.dau := by
  unfold Dev.logError
  (repeat' apply And.intro) <;> rfl

@[simp] theorem Dev.post_frame (d : Dev) (f addr : Nat) (bs : List Byte) :
    (Dev.post d f addr bs).ticks = d.ticks ∧ (Dev.post d f addr bs).run = d.run ∧ (Dev.post d f addr bs).coreRun =
    d.coreRun ∧ (Dev.post d f addr bs).fresh = d.fresh ∧ (Dev.post d f addr bs).free = d.free ∧ (Dev.post d f addr
    bs).pins = d.pins ∧ (Dev.post d f addr bs).boot = d.boot ∧ (Dev.post d f addr bs).resetRefused =
    d.resetRefused ∧ (Dev.post d f addr bs).lwd = d.lwd ∧ (Dev.post d f addr bs).clk = d.clk ∧ (Dev.post d f addr
    bs).sec = d.sec ∧ (Dev.post d f addr bs).fns = d.fns ∧ (Dev.post d f addr bs).queues = d.queues ∧ (Dev.post d
    f addr bs).due = d.due ∧ (Dev.post d f addr bs).charter = d.charter ∧ (Dev.post d f addr bs).parts = d.parts ∧
    (Dev.post d f addr bs).ctxs = d.ctxs ∧ (Dev.post d f addr bs).cores = d.cores ∧ (Dev.post d f addr bs).wmk =
    d.wmk ∧ (Dev.post d f addr bs).depots = d.depots ∧ (Dev.post d f addr bs).mem = d.mem ∧ (Dev.post d f addr
    bs).video = d.video ∧ (Dev.post d f addr bs).trk = d.trk ∧ (Dev.post d f addr bs).vpt = d.vpt ∧ (Dev.post d f
    addr bs).dau = d.dau := by
  unfold Dev.post
  (repeat' apply And.intro) <;> rfl

@[simp] theorem Dev.writeFault_frame (d : Dev) (p : Nat) (head tail : List Byte) :
    (Dev.writeFault d p head tail).ticks = d.ticks ∧ (Dev.writeFault d p head tail).run = d.run ∧ (Dev.writeFault
    d p head tail).coreRun = d.coreRun ∧ (Dev.writeFault d p head tail).fresh = d.fresh ∧ (Dev.writeFault d p head
    tail).free = d.free ∧ (Dev.writeFault d p head tail).pins = d.pins ∧ (Dev.writeFault d p head tail).boot =
    d.boot ∧ (Dev.writeFault d p head tail).resetRefused = d.resetRefused ∧ (Dev.writeFault d p head tail).lwd =
    d.lwd ∧ (Dev.writeFault d p head tail).clk = d.clk ∧ (Dev.writeFault d p head tail).sec = d.sec ∧
    (Dev.writeFault d p head tail).queues = d.queues ∧ (Dev.writeFault d p head tail).due = d.due ∧
    (Dev.writeFault d p head tail).charter = d.charter ∧ (Dev.writeFault d p head tail).ctxs = d.ctxs ∧
    (Dev.writeFault d p head tail).cores = d.cores ∧ (Dev.writeFault d p head tail).wmk = d.wmk ∧ (Dev.writeFault
    d p head tail).depots = d.depots ∧ (Dev.writeFault d p head tail).video = d.video ∧ (Dev.writeFault d p head
    tail).trk = d.trk ∧ (Dev.writeFault d p head tail).vpt = d.vpt ∧ (Dev.writeFault d p head tail).dau = d.dau := by
  unfold Dev.writeFault
  (repeat' apply And.intro) <;> (repeat' split) <;> simp

@[simp] theorem Dev.life_frame (d : Dev) (i k : Nat) :
    (Dev.life d i k).ticks = d.ticks ∧ (Dev.life d i k).run = d.run ∧ (Dev.life d i k).coreRun = d.coreRun ∧
    (Dev.life d i k).fresh = d.fresh ∧ (Dev.life d i k).free = d.free ∧ (Dev.life d i k).pins = d.pins ∧ (Dev.life
    d i k).boot = d.boot ∧ (Dev.life d i k).resetRefused = d.resetRefused ∧ (Dev.life d i k).link = d.link ∧
    (Dev.life d i k).lwd = d.lwd ∧ (Dev.life d i k).clk = d.clk ∧ (Dev.life d i k).fns = d.fns ∧ (Dev.life d i
    k).queues = d.queues ∧ (Dev.life d i k).due = d.due ∧ (Dev.life d i k).bus = d.bus ∧ (Dev.life d i k).charter
    = d.charter ∧ (Dev.life d i k).parts = d.parts ∧ (Dev.life d i k).ctxs = d.ctxs ∧ (Dev.life d i k).cores =
    d.cores ∧ (Dev.life d i k).wmk = d.wmk ∧ (Dev.life d i k).depots = d.depots ∧ (Dev.life d i k).mem = d.mem ∧
    (Dev.life d i k).video = d.video ∧ (Dev.life d i k).trk = d.trk ∧ (Dev.life d i k).vpt = d.vpt ∧ (Dev.life d i
    k).dau = d.dau := by
  unfold Dev.life
  (repeat' apply And.intro) <;> rfl

@[simp] theorem Dev.storeWrite_frame (d : Dev) :
    (Dev.storeWrite d).ticks = d.ticks ∧ (Dev.storeWrite d).run = d.run ∧ (Dev.storeWrite d).coreRun = d.coreRun ∧
    (Dev.storeWrite d).fresh = d.fresh ∧ (Dev.storeWrite d).free = d.free ∧ (Dev.storeWrite d).pins = d.pins ∧
    (Dev.storeWrite d).boot = d.boot ∧ (Dev.storeWrite d).resetRefused = d.resetRefused ∧ (Dev.storeWrite d).link
    = d.link ∧ (Dev.storeWrite d).lwd = d.lwd ∧ (Dev.storeWrite d).clk = d.clk ∧ (Dev.storeWrite d).fns = d.fns ∧
    (Dev.storeWrite d).queues = d.queues ∧ (Dev.storeWrite d).due = d.due ∧ (Dev.storeWrite d).bus = d.bus ∧
    (Dev.storeWrite d).charter = d.charter ∧ (Dev.storeWrite d).parts = d.parts ∧ (Dev.storeWrite d).ctxs = d.ctxs
    ∧ (Dev.storeWrite d).cores = d.cores ∧ (Dev.storeWrite d).wmk = d.wmk ∧ (Dev.storeWrite d).depots = d.depots ∧
    (Dev.storeWrite d).mem = d.mem ∧ (Dev.storeWrite d).video = d.video ∧ (Dev.storeWrite d).trk = d.trk ∧
    (Dev.storeWrite d).vpt = d.vpt ∧ (Dev.storeWrite d).dau = d.dau := by
  unfold Dev.storeWrite
  (repeat' apply And.intro) <;> rfl

@[simp] theorem Dev.bufPut_frame (d : Dev) (id i off : Nat) (bs : List Byte) :
    (Dev.bufPut d id i off bs).ticks = d.ticks ∧ (Dev.bufPut d id i off bs).run = d.run ∧ (Dev.bufPut d id i off
    bs).coreRun = d.coreRun ∧ (Dev.bufPut d id i off bs).fresh = d.fresh ∧ (Dev.bufPut d id i off bs).free =
    d.free ∧ (Dev.bufPut d id i off bs).pins = d.pins ∧ (Dev.bufPut d id i off bs).boot = d.boot ∧ (Dev.bufPut d
    id i off bs).resetRefused = d.resetRefused ∧ (Dev.bufPut d id i off bs).link = d.link ∧ (Dev.bufPut d id i off
    bs).lwd = d.lwd ∧ (Dev.bufPut d id i off bs).clk = d.clk ∧ (Dev.bufPut d id i off bs).sec = d.sec ∧
    (Dev.bufPut d id i off bs).fns = d.fns ∧ (Dev.bufPut d id i off bs).queues = d.queues ∧ (Dev.bufPut d id i off
    bs).due = d.due ∧ (Dev.bufPut d id i off bs).bus = d.bus ∧ (Dev.bufPut d id i off bs).charter = d.charter ∧
    (Dev.bufPut d id i off bs).parts = d.parts ∧ (Dev.bufPut d id i off bs).ctxs = d.ctxs ∧ (Dev.bufPut d id i off
    bs).cores = d.cores ∧ (Dev.bufPut d id i off bs).wmk = d.wmk ∧ (Dev.bufPut d id i off bs).depots = d.depots ∧
    (Dev.bufPut d id i off bs).video = d.video ∧ (Dev.bufPut d id i off bs).trk = d.trk ∧ (Dev.bufPut d id i off
    bs).vpt = d.vpt ∧ (Dev.bufPut d id i off bs).dau = d.dau := by
  unfold Dev.bufPut
  (repeat' apply And.intro) <;> (repeat' split) <;> simp

@[simp] theorem Dev.queueEnds_frame (d : Dev) (f q tag res : Nat) :
    (Dev.queueEnds d f q tag res).ticks = d.ticks ∧ (Dev.queueEnds d f q tag res).run = d.run ∧ (Dev.queueEnds d f
    q tag res).coreRun = d.coreRun ∧ (Dev.queueEnds d f q tag res).fresh = d.fresh ∧ (Dev.queueEnds d f q tag
    res).free = d.free ∧ (Dev.queueEnds d f q tag res).pins = d.pins ∧ (Dev.queueEnds d f q tag res).boot = d.boot
    ∧ (Dev.queueEnds d f q tag res).resetRefused = d.resetRefused ∧ (Dev.queueEnds d f q tag res).link = d.link ∧
    (Dev.queueEnds d f q tag res).lwd = d.lwd ∧ (Dev.queueEnds d f q tag res).clk = d.clk ∧ (Dev.queueEnds d f q
    tag res).sec = d.sec ∧ (Dev.queueEnds d f q tag res).queues = d.queues ∧ (Dev.queueEnds d f q tag res).due =
    d.due ∧ (Dev.queueEnds d f q tag res).bus = d.bus ∧ (Dev.queueEnds d f q tag res).charter = d.charter ∧
    (Dev.queueEnds d f q tag res).parts = d.parts ∧ (Dev.queueEnds d f q tag res).ctxs = d.ctxs ∧ (Dev.queueEnds d
    f q tag res).cores = d.cores ∧ (Dev.queueEnds d f q tag res).wmk = d.wmk ∧ (Dev.queueEnds d f q tag
    res).depots = d.depots ∧ (Dev.queueEnds d f q tag res).mem = d.mem ∧ (Dev.queueEnds d f q tag res).video =
    d.video ∧ (Dev.queueEnds d f q tag res).trk = d.trk ∧ (Dev.queueEnds d f q tag res).vpt = d.vpt ∧
    (Dev.queueEnds d f q tag res).dau = d.dau := by
  unfold Dev.queueEnds
  (repeat' apply And.intro) <;> rfl

@[simp] theorem Dev.queueDisable_frame (d : Dev) (f q tag : Nat) :
    (Dev.queueDisable d f q tag).ticks = d.ticks ∧ (Dev.queueDisable d f q tag).run = d.run ∧ (Dev.queueDisable d
    f q tag).coreRun = d.coreRun ∧ (Dev.queueDisable d f q tag).fresh = d.fresh ∧ (Dev.queueDisable d f q
    tag).free = d.free ∧ (Dev.queueDisable d f q tag).pins = d.pins ∧ (Dev.queueDisable d f q tag).boot = d.boot ∧
    (Dev.queueDisable d f q tag).resetRefused = d.resetRefused ∧ (Dev.queueDisable d f q tag).link = d.link ∧
    (Dev.queueDisable d f q tag).lwd = d.lwd ∧ (Dev.queueDisable d f q tag).clk = d.clk ∧ (Dev.queueDisable d f q
    tag).sec = d.sec ∧ (Dev.queueDisable d f q tag).due = d.due ∧ (Dev.queueDisable d f q tag).bus = d.bus ∧
    (Dev.queueDisable d f q tag).charter = d.charter ∧ (Dev.queueDisable d f q tag).parts = d.parts ∧
    (Dev.queueDisable d f q tag).ctxs = d.ctxs ∧ (Dev.queueDisable d f q tag).cores = d.cores ∧ (Dev.queueDisable
    d f q tag).wmk = d.wmk ∧ (Dev.queueDisable d f q tag).depots = d.depots ∧ (Dev.queueDisable d f q tag).mem =
    d.mem ∧ (Dev.queueDisable d f q tag).video = d.video ∧ (Dev.queueDisable d f q tag).trk = d.trk ∧
    (Dev.queueDisable d f q tag).vpt = d.vpt ∧ (Dev.queueDisable d f q tag).dau = d.dau := by
  unfold Dev.queueDisable
  (repeat' apply And.intro) <;> (repeat' split) <;> rfl

@[simp] theorem Dev.queueQuery_frame (d : Dev) (f q tag : Nat) :
    (Dev.queueQuery d f q tag).ticks = d.ticks ∧ (Dev.queueQuery d f q tag).run = d.run ∧ (Dev.queueQuery d f q
    tag).coreRun = d.coreRun ∧ (Dev.queueQuery d f q tag).fresh = d.fresh ∧ (Dev.queueQuery d f q tag).free =
    d.free ∧ (Dev.queueQuery d f q tag).pins = d.pins ∧ (Dev.queueQuery d f q tag).boot = d.boot ∧ (Dev.queueQuery
    d f q tag).resetRefused = d.resetRefused ∧ (Dev.queueQuery d f q tag).link = d.link ∧ (Dev.queueQuery d f q
    tag).lwd = d.lwd ∧ (Dev.queueQuery d f q tag).clk = d.clk ∧ (Dev.queueQuery d f q tag).sec = d.sec ∧
    (Dev.queueQuery d f q tag).queues = d.queues ∧ (Dev.queueQuery d f q tag).due = d.due ∧ (Dev.queueQuery d f q
    tag).bus = d.bus ∧ (Dev.queueQuery d f q tag).charter = d.charter ∧ (Dev.queueQuery d f q tag).parts = d.parts
    ∧ (Dev.queueQuery d f q tag).ctxs = d.ctxs ∧ (Dev.queueQuery d f q tag).cores = d.cores ∧ (Dev.queueQuery d f
    q tag).wmk = d.wmk ∧ (Dev.queueQuery d f q tag).depots = d.depots ∧ (Dev.queueQuery d f q tag).mem = d.mem ∧
    (Dev.queueQuery d f q tag).video = d.video ∧ (Dev.queueQuery d f q tag).trk = d.trk ∧ (Dev.queueQuery d f q
    tag).vpt = d.vpt ∧ (Dev.queueQuery d f q tag).dau = d.dau := by
  unfold Dev.queueQuery
  (repeat' apply And.intro) <;> rfl

@[simp] theorem Dev.queueReset_frame (d : Dev) (f q tag : Nat) :
    (Dev.queueReset d f q tag).ticks = d.ticks ∧ (Dev.queueReset d f q tag).run = d.run ∧ (Dev.queueReset d f q
    tag).coreRun = d.coreRun ∧ (Dev.queueReset d f q tag).fresh = d.fresh ∧ (Dev.queueReset d f q tag).free =
    d.free ∧ (Dev.queueReset d f q tag).pins = d.pins ∧ (Dev.queueReset d f q tag).boot = d.boot ∧ (Dev.queueReset
    d f q tag).resetRefused = d.resetRefused ∧ (Dev.queueReset d f q tag).link = d.link ∧ (Dev.queueReset d f q
    tag).lwd = d.lwd ∧ (Dev.queueReset d f q tag).clk = d.clk ∧ (Dev.queueReset d f q tag).sec = d.sec ∧
    (Dev.queueReset d f q tag).due = d.due ∧ (Dev.queueReset d f q tag).bus = d.bus ∧ (Dev.queueReset d f q
    tag).charter = d.charter ∧ (Dev.queueReset d f q tag).parts = d.parts ∧ (Dev.queueReset d f q tag).ctxs =
    d.ctxs ∧ (Dev.queueReset d f q tag).cores = d.cores ∧ (Dev.queueReset d f q tag).wmk = d.wmk ∧ (Dev.queueReset
    d f q tag).depots = d.depots ∧ (Dev.queueReset d f q tag).mem = d.mem ∧ (Dev.queueReset d f q tag).video =
    d.video ∧ (Dev.queueReset d f q tag).trk = d.trk ∧ (Dev.queueReset d f q tag).vpt = d.vpt ∧ (Dev.queueReset d
    f q tag).dau = d.dau := by
  unfold Dev.queueReset
  (repeat' apply And.intro) <;> (repeat' split) <;> rfl

@[simp] theorem Dev.owe_frame (d : Dev) (f q : Nat) (bs : List Byte) (last : Option (Nat × Nat)) :
    (Dev.owe d f q bs last).ticks = d.ticks ∧ (Dev.owe d f q bs last).run = d.run ∧ (Dev.owe d f q bs
    last).coreRun = d.coreRun ∧ (Dev.owe d f q bs last).fresh = d.fresh ∧ (Dev.owe d f q bs last).free = d.free ∧
    (Dev.owe d f q bs last).pins = d.pins ∧ (Dev.owe d f q bs last).boot = d.boot ∧ (Dev.owe d f q bs
    last).resetRefused = d.resetRefused ∧ (Dev.owe d f q bs last).link = d.link ∧ (Dev.owe d f q bs last).lwd =
    d.lwd ∧ (Dev.owe d f q bs last).clk = d.clk ∧ (Dev.owe d f q bs last).sec = d.sec ∧ (Dev.owe d f q bs
    last).fns = d.fns ∧ (Dev.owe d f q bs last).queues = d.queues ∧ (Dev.owe d f q bs last).bus = d.bus ∧ (Dev.owe
    d f q bs last).charter = d.charter ∧ (Dev.owe d f q bs last).parts = d.parts ∧ (Dev.owe d f q bs last).ctxs =
    d.ctxs ∧ (Dev.owe d f q bs last).cores = d.cores ∧ (Dev.owe d f q bs last).wmk = d.wmk ∧ (Dev.owe d f q bs
    last).depots = d.depots ∧ (Dev.owe d f q bs last).mem = d.mem ∧ (Dev.owe d f q bs last).video = d.video ∧
    (Dev.owe d f q bs last).trk = d.trk ∧ (Dev.owe d f q bs last).vpt = d.vpt ∧ (Dev.owe d f q bs last).dau =
    d.dau := by
  unfold Dev.owe
  (repeat' apply And.intro) <;> rfl

@[simp] theorem Dev.startWake_frame (d : Dev) (cause filter : Nat) :
    (Dev.startWake d cause filter).ticks = d.ticks ∧ (Dev.startWake d cause filter).run = d.run ∧ (Dev.startWake d
    cause filter).coreRun = d.coreRun ∧ (Dev.startWake d cause filter).fresh = d.fresh ∧ (Dev.startWake d cause
    filter).free = d.free ∧ (Dev.startWake d cause filter).pins = d.pins ∧ (Dev.startWake d cause filter).boot =
    d.boot ∧ (Dev.startWake d cause filter).resetRefused = d.resetRefused ∧ (Dev.startWake d cause filter).link =
    d.link ∧ (Dev.startWake d cause filter).clk = d.clk ∧ (Dev.startWake d cause filter).sec = d.sec ∧
    (Dev.startWake d cause filter).fns = d.fns ∧ (Dev.startWake d cause filter).queues = d.queues ∧ (Dev.startWake
    d cause filter).due = d.due ∧ (Dev.startWake d cause filter).bus = d.bus ∧ (Dev.startWake d cause
    filter).charter = d.charter ∧ (Dev.startWake d cause filter).parts = d.parts ∧ (Dev.startWake d cause
    filter).ctxs = d.ctxs ∧ (Dev.startWake d cause filter).cores = d.cores ∧ (Dev.startWake d cause filter).wmk =
    d.wmk ∧ (Dev.startWake d cause filter).depots = d.depots ∧ (Dev.startWake d cause filter).mem = d.mem ∧
    (Dev.startWake d cause filter).video = d.video ∧ (Dev.startWake d cause filter).trk = d.trk ∧ (Dev.startWake d
    cause filter).vpt = d.vpt ∧ (Dev.startWake d cause filter).dau = d.dau := by
  unfold Dev.startWake
  (repeat' apply And.intro) <;> (repeat' split) <;> rfl

@[simp] theorem Dev.lwdEnds_frame (d : Dev) (tag res : Nat) :
    (Dev.lwdEnds d tag res).ticks = d.ticks ∧ (Dev.lwdEnds d tag res).run = d.run ∧ (Dev.lwdEnds d tag
    res).coreRun = d.coreRun ∧ (Dev.lwdEnds d tag res).fresh = d.fresh ∧ (Dev.lwdEnds d tag res).free = d.free ∧
    (Dev.lwdEnds d tag res).pins = d.pins ∧ (Dev.lwdEnds d tag res).boot = d.boot ∧ (Dev.lwdEnds d tag
    res).resetRefused = d.resetRefused ∧ (Dev.lwdEnds d tag res).link = d.link ∧ (Dev.lwdEnds d tag res).clk =
    d.clk ∧ (Dev.lwdEnds d tag res).sec = d.sec ∧ (Dev.lwdEnds d tag res).fns = d.fns ∧ (Dev.lwdEnds d tag
    res).queues = d.queues ∧ (Dev.lwdEnds d tag res).due = d.due ∧ (Dev.lwdEnds d tag res).bus = d.bus ∧
    (Dev.lwdEnds d tag res).charter = d.charter ∧ (Dev.lwdEnds d tag res).parts = d.parts ∧ (Dev.lwdEnds d tag
    res).ctxs = d.ctxs ∧ (Dev.lwdEnds d tag res).cores = d.cores ∧ (Dev.lwdEnds d tag res).wmk = d.wmk ∧
    (Dev.lwdEnds d tag res).depots = d.depots ∧ (Dev.lwdEnds d tag res).mem = d.mem ∧ (Dev.lwdEnds d tag
    res).video = d.video ∧ (Dev.lwdEnds d tag res).trk = d.trk ∧ (Dev.lwdEnds d tag res).vpt = d.vpt ∧
    (Dev.lwdEnds d tag res).dau = d.dau := by
  unfold Dev.lwdEnds
  (repeat' apply And.intro) <;> rfl

@[simp] theorem Dev.secEnds_frame (d : Dev) (tag res check detail : Nat) :
    (Dev.secEnds d tag res check detail).ticks = d.ticks ∧ (Dev.secEnds d tag res check detail).run = d.run ∧
    (Dev.secEnds d tag res check detail).coreRun = d.coreRun ∧ (Dev.secEnds d tag res check detail).fresh =
    d.fresh ∧ (Dev.secEnds d tag res check detail).free = d.free ∧ (Dev.secEnds d tag res check detail).pins =
    d.pins ∧ (Dev.secEnds d tag res check detail).boot = d.boot ∧ (Dev.secEnds d tag res check
    detail).resetRefused = d.resetRefused ∧ (Dev.secEnds d tag res check detail).link = d.link ∧ (Dev.secEnds d
    tag res check detail).lwd = d.lwd ∧ (Dev.secEnds d tag res check detail).clk = d.clk ∧ (Dev.secEnds d tag res
    check detail).fns = d.fns ∧ (Dev.secEnds d tag res check detail).queues = d.queues ∧ (Dev.secEnds d tag res
    check detail).due = d.due ∧ (Dev.secEnds d tag res check detail).bus = d.bus ∧ (Dev.secEnds d tag res check
    detail).charter = d.charter ∧ (Dev.secEnds d tag res check detail).parts = d.parts ∧ (Dev.secEnds d tag res
    check detail).ctxs = d.ctxs ∧ (Dev.secEnds d tag res check detail).cores = d.cores ∧ (Dev.secEnds d tag res
    check detail).wmk = d.wmk ∧ (Dev.secEnds d tag res check detail).depots = d.depots ∧ (Dev.secEnds d tag res
    check detail).mem = d.mem ∧ (Dev.secEnds d tag res check detail).video = d.video ∧ (Dev.secEnds d tag res
    check detail).trk = d.trk ∧ (Dev.secEnds d tag res check detail).vpt = d.vpt ∧ (Dev.secEnds d tag res check
    detail).dau = d.dau := by
  unfold Dev.secEnds
  (repeat' apply And.intro) <;> rfl

@[simp] theorem Dev.secStart_frame (d : Dev) (c : SecCmd) :
    (Dev.secStart d c).ticks = d.ticks ∧ (Dev.secStart d c).run = d.run ∧ (Dev.secStart d c).coreRun = d.coreRun ∧
    (Dev.secStart d c).fresh = d.fresh ∧ (Dev.secStart d c).free = d.free ∧ (Dev.secStart d c).pins = d.pins ∧
    (Dev.secStart d c).boot = d.boot ∧ (Dev.secStart d c).resetRefused = d.resetRefused ∧ (Dev.secStart d c).link
    = d.link ∧ (Dev.secStart d c).lwd = d.lwd ∧ (Dev.secStart d c).clk = d.clk ∧ (Dev.secStart d c).fns = d.fns ∧
    (Dev.secStart d c).queues = d.queues ∧ (Dev.secStart d c).due = d.due ∧ (Dev.secStart d c).bus = d.bus ∧
    (Dev.secStart d c).charter = d.charter ∧ (Dev.secStart d c).parts = d.parts ∧ (Dev.secStart d c).ctxs = d.ctxs
    ∧ (Dev.secStart d c).cores = d.cores ∧ (Dev.secStart d c).wmk = d.wmk ∧ (Dev.secStart d c).depots = d.depots ∧
    (Dev.secStart d c).mem = d.mem ∧ (Dev.secStart d c).video = d.video ∧ (Dev.secStart d c).trk = d.trk ∧
    (Dev.secStart d c).vpt = d.vpt ∧ (Dev.secStart d c).dau = d.dau := by
  unfold Dev.secStart
  (repeat' apply And.intro) <;> rfl

@[simp] theorem Dev.charterBusy_frame (d : Dev) (op tag : Nat) (r : CFail) :
    (Dev.charterBusy d op tag r).ticks = d.ticks ∧ (Dev.charterBusy d op tag r).run = d.run ∧ (Dev.charterBusy d
    op tag r).coreRun = d.coreRun ∧ (Dev.charterBusy d op tag r).fresh = d.fresh ∧ (Dev.charterBusy d op tag
    r).free = d.free ∧ (Dev.charterBusy d op tag r).pins = d.pins ∧ (Dev.charterBusy d op tag r).boot = d.boot ∧
    (Dev.charterBusy d op tag r).resetRefused = d.resetRefused ∧ (Dev.charterBusy d op tag r).link = d.link ∧
    (Dev.charterBusy d op tag r).lwd = d.lwd ∧ (Dev.charterBusy d op tag r).clk = d.clk ∧ (Dev.charterBusy d op
    tag r).sec = d.sec ∧ (Dev.charterBusy d op tag r).fns = d.fns ∧ (Dev.charterBusy d op tag r).queues = d.queues
    ∧ (Dev.charterBusy d op tag r).due = d.due ∧ (Dev.charterBusy d op tag r).bus = d.bus ∧ (Dev.charterBusy d op
    tag r).parts = d.parts ∧ (Dev.charterBusy d op tag r).ctxs = d.ctxs ∧ (Dev.charterBusy d op tag r).cores =
    d.cores ∧ (Dev.charterBusy d op tag r).wmk = d.wmk ∧ (Dev.charterBusy d op tag r).depots = d.depots ∧
    (Dev.charterBusy d op tag r).mem = d.mem ∧ (Dev.charterBusy d op tag r).video = d.video ∧ (Dev.charterBusy d
    op tag r).trk = d.trk ∧ (Dev.charterBusy d op tag r).vpt = d.vpt ∧ (Dev.charterBusy d op tag r).dau = d.dau := by
  unfold Dev.charterBusy
  (repeat' apply And.intro) <;> rfl

@[simp] theorem Dev.endResidence_frame (d : Dev) (p lo hi : Nat) :
    (Dev.endResidence d p lo hi).ticks = d.ticks ∧ (Dev.endResidence d p lo hi).run = d.run ∧ (Dev.endResidence d
    p lo hi).coreRun = d.coreRun ∧ (Dev.endResidence d p lo hi).fresh = d.fresh ∧ (Dev.endResidence d p lo
    hi).free = d.free ∧ (Dev.endResidence d p lo hi).pins = d.pins ∧ (Dev.endResidence d p lo hi).boot = d.boot ∧
    (Dev.endResidence d p lo hi).resetRefused = d.resetRefused ∧ (Dev.endResidence d p lo hi).link = d.link ∧
    (Dev.endResidence d p lo hi).lwd = d.lwd ∧ (Dev.endResidence d p lo hi).clk = d.clk ∧ (Dev.endResidence d p lo
    hi).sec = d.sec ∧ (Dev.endResidence d p lo hi).fns = d.fns ∧ (Dev.endResidence d p lo hi).queues = d.queues ∧
    (Dev.endResidence d p lo hi).due = d.due ∧ (Dev.endResidence d p lo hi).bus = d.bus ∧ (Dev.endResidence d p lo
    hi).charter = d.charter ∧ (Dev.endResidence d p lo hi).ctxs = d.ctxs ∧ (Dev.endResidence d p lo hi).cores =
    d.cores ∧ (Dev.endResidence d p lo hi).wmk = d.wmk ∧ (Dev.endResidence d p lo hi).depots = d.depots ∧
    (Dev.endResidence d p lo hi).mem = d.mem ∧ (Dev.endResidence d p lo hi).video = d.video ∧ (Dev.endResidence d
    p lo hi).trk = d.trk ∧ (Dev.endResidence d p lo hi).vpt = d.vpt ∧ (Dev.endResidence d p lo hi).dau = d.dau := by
  unfold Dev.endResidence
  (repeat' apply And.intro) <;> rfl

@[simp] theorem Dev.putWmk_frame (d : Dev) (m : Waymark) :
    (Dev.putWmk d m).ticks = d.ticks ∧ (Dev.putWmk d m).run = d.run ∧ (Dev.putWmk d m).coreRun = d.coreRun ∧
    (Dev.putWmk d m).fresh = d.fresh ∧ (Dev.putWmk d m).free = d.free ∧ (Dev.putWmk d m).pins = d.pins ∧
    (Dev.putWmk d m).boot = d.boot ∧ (Dev.putWmk d m).resetRefused = d.resetRefused ∧ (Dev.putWmk d m).link =
    d.link ∧ (Dev.putWmk d m).lwd = d.lwd ∧ (Dev.putWmk d m).clk = d.clk ∧ (Dev.putWmk d m).sec = d.sec ∧
    (Dev.putWmk d m).fns = d.fns ∧ (Dev.putWmk d m).queues = d.queues ∧ (Dev.putWmk d m).due = d.due ∧ (Dev.putWmk
    d m).bus = d.bus ∧ (Dev.putWmk d m).charter = d.charter ∧ (Dev.putWmk d m).parts = d.parts ∧ (Dev.putWmk d
    m).ctxs = d.ctxs ∧ (Dev.putWmk d m).cores = d.cores ∧ (Dev.putWmk d m).depots = d.depots ∧ (Dev.putWmk d
    m).mem = d.mem ∧ (Dev.putWmk d m).video = d.video ∧ (Dev.putWmk d m).trk = d.trk ∧ (Dev.putWmk d m).vpt =
    d.vpt ∧ (Dev.putWmk d m).dau = d.dau := by
  unfold Dev.putWmk
  (repeat' apply And.intro) <;> rfl

@[simp] theorem Dev.clearWmk_frame (d : Dev) (lo hi : Nat) :
    (Dev.clearWmk d lo hi).ticks = d.ticks ∧ (Dev.clearWmk d lo hi).run = d.run ∧ (Dev.clearWmk d lo hi).coreRun =
    d.coreRun ∧ (Dev.clearWmk d lo hi).fresh = d.fresh ∧ (Dev.clearWmk d lo hi).free = d.free ∧ (Dev.clearWmk d lo
    hi).pins = d.pins ∧ (Dev.clearWmk d lo hi).boot = d.boot ∧ (Dev.clearWmk d lo hi).resetRefused =
    d.resetRefused ∧ (Dev.clearWmk d lo hi).link = d.link ∧ (Dev.clearWmk d lo hi).lwd = d.lwd ∧ (Dev.clearWmk d
    lo hi).clk = d.clk ∧ (Dev.clearWmk d lo hi).sec = d.sec ∧ (Dev.clearWmk d lo hi).fns = d.fns ∧ (Dev.clearWmk d
    lo hi).queues = d.queues ∧ (Dev.clearWmk d lo hi).due = d.due ∧ (Dev.clearWmk d lo hi).bus = d.bus ∧
    (Dev.clearWmk d lo hi).charter = d.charter ∧ (Dev.clearWmk d lo hi).parts = d.parts ∧ (Dev.clearWmk d lo
    hi).ctxs = d.ctxs ∧ (Dev.clearWmk d lo hi).cores = d.cores ∧ (Dev.clearWmk d lo hi).depots = d.depots ∧
    (Dev.clearWmk d lo hi).mem = d.mem ∧ (Dev.clearWmk d lo hi).video = d.video ∧ (Dev.clearWmk d lo hi).trk =
    d.trk ∧ (Dev.clearWmk d lo hi).vpt = d.vpt ∧ (Dev.clearWmk d lo hi).dau = d.dau := by
  unfold Dev.clearWmk
  (repeat' apply And.intro) <;> rfl

@[simp] theorem Dev.wakeBlocked_frame (d : Dev) (p : Nat) :
    (Dev.wakeBlocked d p).ticks = d.ticks ∧ (Dev.wakeBlocked d p).run = d.run ∧ (Dev.wakeBlocked d p).coreRun =
    d.coreRun ∧ (Dev.wakeBlocked d p).fresh = d.fresh ∧ (Dev.wakeBlocked d p).free = d.free ∧ (Dev.wakeBlocked d
    p).pins = d.pins ∧ (Dev.wakeBlocked d p).boot = d.boot ∧ (Dev.wakeBlocked d p).resetRefused = d.resetRefused ∧
    (Dev.wakeBlocked d p).link = d.link ∧ (Dev.wakeBlocked d p).lwd = d.lwd ∧ (Dev.wakeBlocked d p).clk = d.clk ∧
    (Dev.wakeBlocked d p).sec = d.sec ∧ (Dev.wakeBlocked d p).fns = d.fns ∧ (Dev.wakeBlocked d p).queues =
    d.queues ∧ (Dev.wakeBlocked d p).due = d.due ∧ (Dev.wakeBlocked d p).bus = d.bus ∧ (Dev.wakeBlocked d
    p).charter = d.charter ∧ (Dev.wakeBlocked d p).parts = d.parts ∧ (Dev.wakeBlocked d p).cores = d.cores ∧
    (Dev.wakeBlocked d p).wmk = d.wmk ∧ (Dev.wakeBlocked d p).depots = d.depots ∧ (Dev.wakeBlocked d p).mem =
    d.mem ∧ (Dev.wakeBlocked d p).video = d.video ∧ (Dev.wakeBlocked d p).trk = d.trk ∧ (Dev.wakeBlocked d p).vpt
    = d.vpt ∧ (Dev.wakeBlocked d p).dau = d.dau := by
  unfold Dev.wakeBlocked
  (repeat' apply And.intro) <;> (repeat' split) <;> rfl

@[simp] theorem Dev.wbWrite_frame (d : Dev) (p : Part) (ref : Nat) (body : List Byte) :
    (Dev.wbWrite d p ref body).ticks = d.ticks ∧ (Dev.wbWrite d p ref body).run = d.run ∧ (Dev.wbWrite d p ref
    body).coreRun = d.coreRun ∧ (Dev.wbWrite d p ref body).fresh = d.fresh ∧ (Dev.wbWrite d p ref body).free =
    d.free ∧ (Dev.wbWrite d p ref body).pins = d.pins ∧ (Dev.wbWrite d p ref body).boot = d.boot ∧ (Dev.wbWrite d
    p ref body).resetRefused = d.resetRefused ∧ (Dev.wbWrite d p ref body).link = d.link ∧ (Dev.wbWrite d p ref
    body).lwd = d.lwd ∧ (Dev.wbWrite d p ref body).clk = d.clk ∧ (Dev.wbWrite d p ref body).sec = d.sec ∧
    (Dev.wbWrite d p ref body).fns = d.fns ∧ (Dev.wbWrite d p ref body).queues = d.queues ∧ (Dev.wbWrite d p ref
    body).due = d.due ∧ (Dev.wbWrite d p ref body).bus = d.bus ∧ (Dev.wbWrite d p ref body).charter = d.charter ∧
    (Dev.wbWrite d p ref body).ctxs = d.ctxs ∧ (Dev.wbWrite d p ref body).cores = d.cores ∧ (Dev.wbWrite d p ref
    body).wmk = d.wmk ∧ (Dev.wbWrite d p ref body).depots = d.depots ∧ (Dev.wbWrite d p ref body).video = d.video
    ∧ (Dev.wbWrite d p ref body).trk = d.trk ∧ (Dev.wbWrite d p ref body).vpt = d.vpt ∧ (Dev.wbWrite d p ref
    body).dau = d.dau := by
  unfold Dev.wbWrite
  (repeat' apply And.intro) <;> (repeat' split) <;> rfl

@[simp] theorem Dev.routeEnds_frame (d : Dev) (e : JobEntry) (ts : List TensorRef) (end_ : JobEnd) (outLen batch : Nat) (keep : Bool) :
    (Dev.routeEnds d e ts end_ outLen batch keep).ticks = d.ticks ∧ (Dev.routeEnds d e ts end_ outLen batch
    keep).run = d.run ∧ (Dev.routeEnds d e ts end_ outLen batch keep).coreRun = d.coreRun ∧ (Dev.routeEnds d e ts
    end_ outLen batch keep).fresh = d.fresh ∧ (Dev.routeEnds d e ts end_ outLen batch keep).free = d.free ∧
    (Dev.routeEnds d e ts end_ outLen batch keep).pins = d.pins ∧ (Dev.routeEnds d e ts end_ outLen batch
    keep).boot = d.boot ∧ (Dev.routeEnds d e ts end_ outLen batch keep).resetRefused = d.resetRefused ∧
    (Dev.routeEnds d e ts end_ outLen batch keep).link = d.link ∧ (Dev.routeEnds d e ts end_ outLen batch
    keep).lwd = d.lwd ∧ (Dev.routeEnds d e ts end_ outLen batch keep).clk = d.clk ∧ (Dev.routeEnds d e ts end_
    outLen batch keep).sec = d.sec ∧ (Dev.routeEnds d e ts end_ outLen batch keep).fns = d.fns ∧ (Dev.routeEnds d
    e ts end_ outLen batch keep).queues = d.queues ∧ (Dev.routeEnds d e ts end_ outLen batch keep).due = d.due ∧
    (Dev.routeEnds d e ts end_ outLen batch keep).bus = d.bus ∧ (Dev.routeEnds d e ts end_ outLen batch
    keep).charter = d.charter ∧ (Dev.routeEnds d e ts end_ outLen batch keep).parts = d.parts ∧ (Dev.routeEnds d e
    ts end_ outLen batch keep).ctxs = d.ctxs ∧ (Dev.routeEnds d e ts end_ outLen batch keep).cores = d.cores ∧
    (Dev.routeEnds d e ts end_ outLen batch keep).wmk = d.wmk ∧ (Dev.routeEnds d e ts end_ outLen batch
    keep).depots = d.depots ∧ (Dev.routeEnds d e ts end_ outLen batch keep).mem = d.mem ∧ (Dev.routeEnds d e ts
    end_ outLen batch keep).video = d.video ∧ (Dev.routeEnds d e ts end_ outLen batch keep).vpt = d.vpt ∧
    (Dev.routeEnds d e ts end_ outLen batch keep).dau = d.dau := by
  unfold Dev.routeEnds
  (repeat' apply And.intro) <;> rfl

@[simp] theorem Dev.leaveCores_frame (d : Dev) (x : Ctx) (scrub : Bool) :
    (Dev.leaveCores d x scrub).ticks = d.ticks ∧ (Dev.leaveCores d x scrub).run = d.run ∧ (Dev.leaveCores d x
    scrub).coreRun = d.coreRun ∧ (Dev.leaveCores d x scrub).fresh = d.fresh ∧ (Dev.leaveCores d x scrub).free =
    d.free ∧ (Dev.leaveCores d x scrub).pins = d.pins ∧ (Dev.leaveCores d x scrub).boot = d.boot ∧ (Dev.leaveCores
    d x scrub).resetRefused = d.resetRefused ∧ (Dev.leaveCores d x scrub).link = d.link ∧ (Dev.leaveCores d x
    scrub).lwd = d.lwd ∧ (Dev.leaveCores d x scrub).clk = d.clk ∧ (Dev.leaveCores d x scrub).sec = d.sec ∧
    (Dev.leaveCores d x scrub).fns = d.fns ∧ (Dev.leaveCores d x scrub).queues = d.queues ∧ (Dev.leaveCores d x
    scrub).due = d.due ∧ (Dev.leaveCores d x scrub).bus = d.bus ∧ (Dev.leaveCores d x scrub).charter = d.charter ∧
    (Dev.leaveCores d x scrub).parts = d.parts ∧ (Dev.leaveCores d x scrub).ctxs = d.ctxs ∧ (Dev.leaveCores d x
    scrub).wmk = d.wmk ∧ (Dev.leaveCores d x scrub).depots = d.depots ∧ (Dev.leaveCores d x scrub).mem = d.mem ∧
    (Dev.leaveCores d x scrub).video = d.video ∧ (Dev.leaveCores d x scrub).trk = d.trk ∧ (Dev.leaveCores d x
    scrub).vpt = d.vpt ∧ (Dev.leaveCores d x scrub).dau = d.dau := by
  unfold Dev.leaveCores
  (repeat' apply And.intro) <;> rfl

@[simp] theorem Dev.leaveLane_frame (d : Dev) (j : Nat) :
    (Dev.leaveLane d j).ticks = d.ticks ∧ (Dev.leaveLane d j).run = d.run ∧ (Dev.leaveLane d j).coreRun =
    d.coreRun ∧ (Dev.leaveLane d j).fresh = d.fresh ∧ (Dev.leaveLane d j).free = d.free ∧ (Dev.leaveLane d j).pins
    = d.pins ∧ (Dev.leaveLane d j).boot = d.boot ∧ (Dev.leaveLane d j).resetRefused = d.resetRefused ∧
    (Dev.leaveLane d j).link = d.link ∧ (Dev.leaveLane d j).lwd = d.lwd ∧ (Dev.leaveLane d j).clk = d.clk ∧
    (Dev.leaveLane d j).sec = d.sec ∧ (Dev.leaveLane d j).fns = d.fns ∧ (Dev.leaveLane d j).queues = d.queues ∧
    (Dev.leaveLane d j).due = d.due ∧ (Dev.leaveLane d j).bus = d.bus ∧ (Dev.leaveLane d j).charter = d.charter ∧
    (Dev.leaveLane d j).parts = d.parts ∧ (Dev.leaveLane d j).ctxs = d.ctxs ∧ (Dev.leaveLane d j).cores = d.cores
    ∧ (Dev.leaveLane d j).wmk = d.wmk ∧ (Dev.leaveLane d j).depots = d.depots ∧ (Dev.leaveLane d j).video =
    d.video ∧ (Dev.leaveLane d j).trk = d.trk ∧ (Dev.leaveLane d j).vpt = d.vpt ∧ (Dev.leaveLane d j).dau = d.dau := by
  unfold Dev.leaveLane
  (repeat' apply And.intro) <;> rfl

@[simp] theorem Dev.violate_frame (d : Dev) (j : Nat) :
    (Dev.violate d j).ticks = d.ticks ∧ (Dev.violate d j).run = d.run ∧ (Dev.violate d j).coreRun = d.coreRun ∧
    (Dev.violate d j).fresh = d.fresh ∧ (Dev.violate d j).free = d.free ∧ (Dev.violate d j).pins = d.pins ∧
    (Dev.violate d j).boot = d.boot ∧ (Dev.violate d j).resetRefused = d.resetRefused ∧ (Dev.violate d j).link =
    d.link ∧ (Dev.violate d j).lwd = d.lwd ∧ (Dev.violate d j).clk = d.clk ∧ (Dev.violate d j).sec = d.sec ∧
    (Dev.violate d j).fns = d.fns ∧ (Dev.violate d j).queues = d.queues ∧ (Dev.violate d j).due = d.due ∧
    (Dev.violate d j).bus = d.bus ∧ (Dev.violate d j).charter = d.charter ∧ (Dev.violate d j).parts = d.parts ∧
    (Dev.violate d j).cores = d.cores ∧ (Dev.violate d j).wmk = d.wmk ∧ (Dev.violate d j).depots = d.depots ∧
    (Dev.violate d j).mem = d.mem ∧ (Dev.violate d j).video = d.video ∧ (Dev.violate d j).trk = d.trk ∧
    (Dev.violate d j).vpt = d.vpt ∧ (Dev.violate d j).dau = d.dau := by
  unfold Dev.violate
  (repeat' apply And.intro) <;> rfl

theorem Dev.modCores_cores (g : Core → Core) (cs : List Nat) :
    ∀ d : Dev, ∃ ks, cs.foldl (fun d c => d.modCore c g) d = { d with cores := ks } := by
  induction cs with
  | nil => exact fun d => ⟨d.cores, rfl⟩
  | cons c cs ih => exact fun d => (ih (d.modCore c g)).imp fun _ h => h

/-- Ordering transfers behind stores touches nothing but the cores (R44). -/
theorem Dev.reorder_cores (x : Ctx) : ∀ (n : Nat) (d : Dev), ∃ ks, Dev.reorder x n d = { d with cores := ks }
  | 0, d => ⟨d.cores, rfl⟩
  | n + 1, d => by
    obtain ⟨ks, h⟩ := Dev.modCores_cores
      (fun k => { k with run := k.run.relinked (k.run.queue.map (·.follow (d.storesOf x))) }) x.cores d
    obtain ⟨js, h'⟩ := Dev.reorder_cores x n { d with cores := ks }
    exact ⟨js, by simp only [Dev.reorder, h, h']⟩

/-- Data that lands touches nothing but the cores (R42, R44). -/
theorem Dev.landData_cores (d : Dev) (core place ck : Nat) :
    ∃ ks, d.landData core place ck = { d with cores := ks } := by
  unfold Dev.landData
  dsimp only
  split
  · exact (Dev.reorder_cores _ _ _).imp fun _ h => h
  · exact ⟨_, rfl⟩

@[simp] theorem Dev.landData_frame (d : Dev) (core place ck : Nat) :
    (Dev.landData d core place ck).ticks = d.ticks ∧ (Dev.landData d core place ck).run = d.run ∧ (Dev.landData d
    core place ck).coreRun = d.coreRun ∧ (Dev.landData d core place ck).fresh = d.fresh ∧ (Dev.landData d core
    place ck).free = d.free ∧ (Dev.landData d core place ck).pins = d.pins ∧ (Dev.landData d core place ck).boot =
    d.boot ∧ (Dev.landData d core place ck).resetRefused = d.resetRefused ∧ (Dev.landData d core place ck).link =
    d.link ∧ (Dev.landData d core place ck).lwd = d.lwd ∧ (Dev.landData d core place ck).clk = d.clk ∧
    (Dev.landData d core place ck).sec = d.sec ∧ (Dev.landData d core place ck).fns = d.fns ∧ (Dev.landData d core
    place ck).queues = d.queues ∧ (Dev.landData d core place ck).due = d.due ∧ (Dev.landData d core place ck).bus
    = d.bus ∧ (Dev.landData d core place ck).charter = d.charter ∧ (Dev.landData d core place ck).parts = d.parts
    ∧ (Dev.landData d core place ck).ctxs = d.ctxs ∧ (Dev.landData d core place ck).wmk = d.wmk ∧ (Dev.landData d
    core place ck).depots = d.depots ∧ (Dev.landData d core place ck).mem = d.mem ∧ (Dev.landData d core place
    ck).video = d.video ∧ (Dev.landData d core place ck).trk = d.trk ∧ (Dev.landData d core place ck).vpt = d.vpt
    ∧ (Dev.landData d core place ck).dau = d.dau := by
  obtain ⟨cs, h⟩ := Dev.landData_cores d core place ck
  rw [h]
  (repeat' apply And.intro) <;> rfl

end Sys2Proof.Machine
end

