-- ==== Sys2Proof/Laws/Memory.lean ====
section
/-! SUPPORT. The byte memories: what a read gives after a write, and that every operation on a memory keeps the canonical
form (addresses rising, no cell equal to what an unlisted address reads as). -/

namespace Sys2Proof.Machine

/-! ### The canonical form -/

/-- A memory canonical from a bound is so from a lower one. -/
theorem memWfFrom_mono {lo lo' : Nat} (h : lo' ≤ lo) : ∀ {m : Mem}, memWfFrom lo m = true → memWfFrom lo' m = true
  | [], _ => rfl
  | (k, v) :: m, hm => by
    simp only [memWfFrom, Bool.and_eq_true, decide_eq_true_eq] at hm ⊢
    exact ⟨⟨Nat.le_trans h hm.1.1, hm.1.2⟩, hm.2⟩

/-- Below its bound a canonical memory lists nothing. -/
theorem memRead_below {a : Nat} : ∀ {lo : Nat} {m : Mem}, memWfFrom lo m = true → a < lo → memRead m a = memDefault
  | _, [], _, _ => rfl
  | lo, (k, v) :: m, hm, ha => by
    simp only [memWfFrom, Bool.and_eq_true, decide_eq_true_eq] at hm
    have hk : a < k := Nat.lt_of_lt_of_le ha hm.1.1
    simp [memRead, Nat.ne_of_lt hk, hk]

/-- A write keeps the canonical form. -/
theorem memWrite_wfFrom (a : Nat) (v : Byte) :
    ∀ {lo : Nat} {m : Mem}, memWfFrom lo m = true → lo ≤ a → memWfFrom lo (memWrite m a v) = true
  | lo, [], _, ha => by
    by_cases hv : v = memDefault
    · simp [memWrite, hv, memWfFrom]
    · simp [memWrite, hv, memWfFrom, ha]
  | lo, (k, w) :: m, hm, ha => by
    simp only [memWfFrom, Bool.and_eq_true, decide_eq_true_eq] at hm
    obtain ⟨⟨hlo, hw⟩, hrest⟩ := hm
    unfold memWrite
    split
    · rename_i hlt
      split
      · simp [memWfFrom, hlo, hw, hrest]
      · rename_i hv
        simp only [memWfFrom, Bool.and_eq_true, decide_eq_true_eq]
        exact ⟨⟨ha, hv⟩, ⟨hlt, hw⟩, hrest⟩
    · rename_i hlt
      split
      · rename_i heq
        split
        · exact memWfFrom_mono (by omega) hrest
        · rename_i hv
          subst heq
          simp [memWfFrom, ha, hv, hrest]
      · rename_i hne
        simp only [memWfFrom, Bool.and_eq_true, decide_eq_true_eq]
        exact ⟨⟨hlo, hw⟩, memWrite_wfFrom a v hrest (by omega)⟩

theorem memWrite_wf {m : Mem} (a : Nat) (v : Byte) (h : memWf m = true) : memWf (memWrite m a v) = true :=
  memWrite_wfFrom a v h (Nat.zero_le a)

theorem memWriteBytes_wf : ∀ (bs : List Byte) (a : Nat) {m : Mem}, memWf m = true → memWf (memWriteBytes m a bs) = true
  | [], _, _, h => h
  | b :: bs, a, _, h => memWriteBytes_wf bs (a + 1) (memWrite_wf a b h)

theorem memWriteBits_wf {m : Mem} (a n v : Nat) (h : memWf m = true) : memWf (memWriteBits m a n v) = true :=
  memWriteBytes_wf _ _ h

/-- Leaving cells out keeps the canonical form. -/
theorem memFilter_wfFrom (p : Host.Cell → Bool) :
    ∀ {lo : Nat} {m : Mem}, memWfFrom lo m = true → memWfFrom lo (m.filter p) = true
  | _, [], _ => rfl
  | lo, (k, v) :: m, hm => by
    simp only [memWfFrom, Bool.and_eq_true, decide_eq_true_eq] at hm
    by_cases hp : p (k, v) = true
    · simp only [List.filter_cons, hp, if_true, memWfFrom, Bool.and_eq_true, decide_eq_true_eq]
      exact ⟨hm.1, memFilter_wfFrom p hm.2⟩
    · simp only [List.filter_cons, hp, Bool.false_eq_true, if_false]
      exact memFilter_wfFrom p (memWfFrom_mono (by omega) hm.2)

theorem memClear_wf {m : Mem} (lo hi : Nat) (h : memWf m = true) : memWf (memClear m lo hi) = true :=
  memFilter_wfFrom _ h

theorem memSlice_wf {m : Mem} (lo hi : Nat) (h : memWf m = true) : memWf (memSlice m lo hi) = true :=
  memFilter_wfFrom _ h

theorem hbmPut_wf (l : List Nat) : ∀ (bs : List Byte) (a : Nat) {m : Mem}, memWf m = true → memWf (hbmPut l a bs m) = true
  | [], _, _, h => h
  | b :: bs, a, m, h => by
    unfold hbmPut
    apply hbmPut_wf
    split
    · exact memWrite_wf _ _ h
    · exact h

/-- Writing a list of cells one after the other keeps the canonical form. -/
theorem foldWrite_wf (f : Host.Cell → Nat) :
    ∀ (cs : List Host.Cell) {m : Mem}, memWf m = true → memWf (cs.foldl (fun m c => memWrite m (f c) c.2) m) = true
  | [], _, h => h
  | c :: cs, _, h => foldWrite_wf f cs (memWrite_wf (f c) c.2 h)

theorem moveChannel_wf {m : Mem} (src dst : Nat) (h : memWf m = true) : memWf (moveChannel src dst m) = true :=
  foldWrite_wf _ _ (memClear_wf _ _ (memClear_wf _ _ h))

/-! ### Reads after writes -/

theorem memRead_memWrite_same (a : Nat) (v : Byte) :
    ∀ {lo : Nat} {m : Mem}, memWfFrom lo m = true → memRead (memWrite m a v) a = v
  | _, [], _ => by
    by_cases hv : v = memDefault <;> simp [memWrite, hv, memRead]
  | lo, (k, w) :: m, hm => by
    simp only [memWfFrom, Bool.and_eq_true, decide_eq_true_eq] at hm
    unfold memWrite
    split
    · rename_i hlt
      split
      · rename_i hv
        simp [memRead, Nat.ne_of_lt hlt, hlt, hv]
      · simp [memRead]
    · rename_i hlt
      split
      · rename_i heq
        split
        · rename_i hv
          rw [memRead_below hm.2 (by omega), hv]
        · simp [memRead]
      · rename_i hne
        have hgt : k < a := by omega
        simp only [memRead, Nat.ne_of_gt hgt, if_false, hlt]
        exact memRead_memWrite_same a v hm.2

theorem memRead_memWrite_ne {a b : Nat} (v : Byte) (hab : b ≠ a) :
    ∀ {lo : Nat} {m : Mem}, memWfFrom lo m = true → memRead (memWrite m a v) b = memRead m b
  | _, [], _ => by
    by_cases hv : v = memDefault <;> simp [memWrite, hv, memRead, hab]
  | lo, (k, w) :: m, hm => by
    simp only [memWfFrom, Bool.and_eq_true, decide_eq_true_eq] at hm
    unfold memWrite
    split
    · rename_i hlt
      split
      · rfl
      · by_cases hb : b < a
        · have h1 : b < k := by omega
          simp [memRead, hab, hb, Nat.ne_of_lt h1, h1]
        · simp [memRead, hab, hb]
    · rename_i hlt
      split
      · rename_i heq
        subst heq
        split
        · by_cases hb : b < a
          · rw [memRead_below hm.2 (by omega)]
            simp [memRead, hab, hb]
          · simp [memRead, hab, hb]
        · simp [memRead, hab]
      · rename_i hne
        by_cases hk : b = k
        · simp [memRead, hk]
        · by_cases hb : b < k
          · simp [memRead, hk, hb]
          · simp only [memRead, hk, if_false, hb]
            exact memRead_memWrite_ne v hab hm.2

/-- Bytes written to a memory leave every other address. -/
theorem memRead_memWriteBytes_outside {b : Nat} :
    ∀ (bs : List Byte) (a : Nat) {m : Mem}, memWf m = true → (b < a ∨ a + bs.length ≤ b) →
      memRead (memWriteBytes m a bs) b = memRead m b
  | [], _, _, _, _ => rfl
  | v :: bs, a, m, h, hb => by
    simp only [List.length_cons] at hb
    unfold memWriteBytes
    rw [memRead_memWriteBytes_outside bs (a + 1) (memWrite_wf a v h) (by omega)]
    exact memRead_memWrite_ne v (by omega) h

/-- A byte written to a memory reads back. -/
theorem memRead_memWriteBytes_inside :
    ∀ (bs : List Byte) (a i : Nat) {m : Mem}, memWf m = true → (hi : i < bs.length) →
      memRead (memWriteBytes m a bs) (a + i) = bs[i]
  | v :: bs, a, 0, m, h, _ => by
    unfold memWriteBytes
    rw [memRead_memWriteBytes_outside bs (a + 1) (memWrite_wf a v h) (by omega)]
    exact memRead_memWrite_same a v h
  | v :: bs, a, i + 1, m, h, hi => by
    simp only [List.length_cons] at hi
    have := memRead_memWriteBytes_inside bs (a + 1) i (memWrite_wf a v h) (by omega)
    unfold memWriteBytes
    rw [show a + (i + 1) = a + 1 + i by omega]
    simpa using this

end Sys2Proof.Machine
end

