-- ==== Sys2Proof/Laws/WellFormed.lean ====
section
/-! SUPPORT. Well-formed commands unfolded to facts about their operands, the page that serves an access, and the memories of
the reset state. -/

namespace Sys2Proof

theorem Instr.wf_iff (c : Instr) : c.wf = true ↔ firstBad c.operands = none ∧ c.unfit = none := by
  simp [Instr.wf, Instr.illFormed]

@[simp] theorem firstBad_nil : firstBad [] = none := rfl

@[simp] theorem firstBad_cons (b : Bound) (n : Nat) (l : List (Bound × Nat)) :
    firstBad ((b, n) :: l) = none ↔ n < b.count ∧ firstBad l = none := by
  show (if n < b.count then firstBad l else some b.name) = none ↔ _
  by_cases h : n < b.count <;> simp only [h, if_true, if_false, true_and, false_and, reduceCtorEq]

@[simp] theorem ownerOk_iff (o : Nat) : ownerOk o = none ↔ o ≠ 6 := by simp [ownerOk]

@[simp] theorem lineOk_iff (a : Nat) : lineOk a = none ↔ a < 1207959552 ∧ a % 64 = 0 := by simp [lineOk]

namespace Machine

/-- A page that serves a function answers its access with the register's effect (R437, R456). -/
theorem Dev.access_serves (d : Dev) (f : Nat) (p : Page) (k : Dev → Dev) (h : d.serves f p = true) :
    d.access f p k = k d.wakeLink := by
  have hw : d.wakeLink.serves f p = d.serves f p := rfl
  have h' := h
  simp only [Dev.serves, Bool.and_eq_true, Bool.not_eq_true'] at h'
  exact Dev.access_served d f p k h'.1.1.1 h'.1.1.2 h'.1.2 (hw.trans h)

/-- The reset state's memories are canonical. -/
theorem reset_memories_wf : memWf State.reset.dev.mem.hbm = true ∧ memWf State.reset.dev.charter.staging = true ∧
    memWf State.reset.dev.sec.flash = true := by decide

end Machine

open Machine

/-- A command that completes has this next state. -/
theorem Completes.of_eq {c : Instr} {s : State} {P : Dev → Prop} {d : Dev} (h : exec c s = .next (s.withDev d)) (hp : P d) :
    Completes c s P := ⟨d, h, hp⟩

theorem Completes.mono {c : Instr} {s : State} {P Q : Dev → Prop} (h : Completes c s P) (hq : ∀ d, P d → Q d) :
    Completes c s Q := h.elim fun d hd => ⟨d, hd.1, hq d hd.2⟩

end Sys2Proof
end

