-- ==== Sys2Proof/Tests/Slice0.lean ====
section
/-! SUPPORT. Tests: the WellFormed smoke, single steps against values worked out from the spec, and witnesses: states that meet
the hypotheses of the statements, clause by clause. -/

namespace Sys2Proof.Tests

open Sys2Proof Sys2Proof.Machine

set_option Elab.async false

/-! ### Fixtures -/

def st (d : Dev) : State := { pending := [], dev := d }

/-- A booted device in Active whose functions 0 and 1 take memory requests and may issue their own. -/
def up : Dev :=
  { Dev.reset with
    boot := .done
    clk := { Clk.reset with pllLock := true }
    fns := (upTo 7).map fun i => if i < 2 then { Fn.reset i with present := true, mse := true, bme := true } else Fn.reset i }

def cfg : Charter :=
  { id := 1, digest := zeros 48
    parts := [{ id := 0, owner := 0, mask := 3, b := 64, maxCtx := 4, ssmKib := 64, wmFirst := 0, wmCount := 8, priv := 4
                pcs := [0, 1] }]
    funcs := [{ fn := 0, streamFirst := 0, streamCount := 8, routeFirst := 0, routeCount := 8, queueFirst := 0
                queueCount := 8, quota := 100, commonMib := 4 },
              { fn := 1, streamFirst := 8, streamCount := 8, routeFirst := 8, routeCount := 8, queueFirst := 8
                queueCount := 8, quota := 100, commonMib := 4 }]
    mesh := [], depots := [], zones := [], port := none, retrainMs := 20, forceMs := 80, scrubHours := 24, spares := [30] }

def part0 : Part :=
  { Part.reset 0 with defined := true, owner := 0, mask := 3, b := 64, maxCtx := 4, ssmKib := 64, wmCount := 8, priv := 4
                      granted := 2 ^ 30 }

/-- A sealed charter with partition 0 of function 0, on cores 0 and 1. -/
def sealed : Dev :=
  { up with
    charter := { CharterSt.reset with st := .sealed, cur := some cfg }
    parts := part0 :: ((upTo 6).drop 1).map Part.reset
    mem := { Memory.reset with open_ := true, lists := [(0, [0, 1]), (7, [2, 3])], spares := [30] } }

def manifest (n : Nat) (streams : List (Nat × Nat)) : Manifest :=
  { off := 4096, cores := n, batch := 1, planned := 4000, reserve := 2000, bandwidth := 64, cspBytes := 2 ^ 20
    acmBytes := 2 ^ 20, wmFirst := 0, wmCount := 2, shapes := [], gates := [(50, 4)]
    regions := [{ base := 65536, len := 65536, kind := 1 }], digs := [], streams := streams, digest := zeros 48
    imageEnd := 8192 }

def entry0 : JobEntry :=
  { id := 0, part := 0, fn := 0, src := .host 7 1 0 false 0, mf := 4096, inBufs := [], outBufs := [], digests := [] }

def ctx0 (cores : List Nat) (streams : List (Nat × Nat)) : Ctx :=
  { entry := entry0, mf := manifest cores.length streams, shapes := [], regions := (manifest 1 []).regions, st := .running
    heldBy := none, lane := none, cores := cores, coreMask := 1, saved := [], saveSlot := none, attempt := 0, base := 0
    replayCk := 0, now := 0, pauses := [], paused := false, replays := [], spent := [], violation := false, becalmed := 0
    wmBase := 0, adds := [], residentTick := 0, blockedTick := 0, readySeq := 0, weightDigest := zeros 48 }

/-- An instruction word from its fields: lowest bit and value. -/
def word (fields : List (Nat × Nat)) : Nat := fields.foldl (fun n f => n + f.2 * 2 ^ f.1) 0

/-- Bytes in a scratchpad that is otherwise zero. -/
def csp (bs : List (Nat × List Byte)) : Mem := bs.foldl (fun m b => memWriteBytes m b.1 b.2) []

/-- Job 0 on core 0 at the start of the stream `ws`, with scratchpad contents. -/
def runs (ws : List Nat) (pad : Mem) : Dev :=
  let d : Dev := { sealed with
    ctxs := [ctx0 [0] [(4096, ws.length)]]
    cores := modAt (fun k => { k with job := some 0, mem := { k.mem with csp := pad } }) 0 sealed.cores }
  d.ownerWrite 0 8192 (ws.flatMap fun w => le 16 w)

/-- Core 0's next step is the issue of `w` in ck `t`, planned for `plan`, in a seat with property `p`. -/
def issues (d : Dev) (row : TileOp) (w t plan : Nat) (p : Seat → Bool) : Bool :=
  dueTile row 0 d &&
  (match d.seat 0 with
    | some s => match d.nextOf s with
      | .issue t' plan' _ _ => t' == t && plan' == plan
      | _ => false
    | none => false) &&
  (match (Reached d 0 t).seat 0 with
    | some s => (Reached d 0 t).tileAt s.p s.x s.slot s.k.run.ip == some w && p s
    | none => false)

/-- The check above is what the statements ask of a state. -/
theorem issuing_of_issues {d : Dev} {row : TileOp} {w t plan : Nat} {p : Seat → Bool} (h : issues d row w t plan p = true) :
    ∃ s, Issuing d row 0 s w t plan ∧ p s = true := by
  simp only [issues, Bool.and_eq_true] at h
  obtain ⟨⟨hd, hn⟩, hs⟩ := h
  split at hs
  · rename_i s hs'
    simp only [Bool.and_eq_true, beq_iff_eq] at hs
    refine ⟨s, ⟨by decide, hd, ?_, hs', hs.1⟩, hs.2⟩
    split at hn
    · rename_i s0 h0
      split at hn
      · rename_i cause vxe hx
        simp only [Bool.and_eq_true, beq_iff_eq] at hn
        exact ⟨s0, _, _, h0, by rw [hx, hn.1, hn.2]⟩
      · cases hn
    · cases hn
  · cases hs

def any (_ : Seat) : Bool := true

theorem test_nop_issues : issues (runs [word []] []) .nop (word []) 0 0 any = true := by decide +kernel

/-! ### Tile instructions: words written out from R245 to R275, issued as the first of their stream -/

/-- A window descriptor (R259): 1 x 1 window over 2 x 2 pixels of 64 B, both positions. -/
def winDesc (dst pitch : Nat) : List Byte :=
  zeros 10 ++ le 2 2 ++ le 2 2 ++ le 2 0 ++ le 2 3 ++ le 2 2 ++ le 4 0 ++ le 4 0 ++ le 4 128 ++ le 4 64 ++ zeros 8 ++
  le 4 dst ++ le 4 pitch ++ le 1 0 ++ zeros 11

/-- A vector descriptor (R262): modes, formats, DST2 and DST3; no masks, all addresses 0. -/
def vecDesc (modes fmts : List Nat) (dst2 dst3 : Nat) : List Byte :=
  modes.flatMap (le 1) ++ fmts.flatMap (le 1) ++ zeros 12 ++ le 4 64 ++ zeros 8 ++ le 4 0xFFFFFFFF ++ le 4 0xFFFFFFFF ++
  le 4 dst2 ++ le 4 dst3 ++ zeros 16

/-- A VOP or VRD of R261 on granules 0 (A), 1 (B), 128 (DST), its descriptor at granule 16. -/
def vecWord (opc fn ct b : Nat) : Nat := word [(0, opc), (24, fn), (30, ct), (32, 128), (72, b), (92, 16)]

def vecRuns (opc fn ct b : Nat) (modes fmts : List Nat) (dst2 dst3 : Nat) : Dev :=
  runs [vecWord opc fn ct b] (csp [(1024, vecDesc modes fmts dst2 dst3)])

def wPrefix : Nat := word [(4, 1), (24, 2), (44, 3)]
def wMxm : Nat := word [(0, 1), (52, 32), (80, 2), (88, 4), (103, 64)]
def wCnv : Nat := word [(0, 2), (32, 16), (52, 32), (80, 4)]
def wDwc : Nat := word [(0, 3), (32, 16), (52, 32)]
def wPlx : Nat := word [(0, 4), (32, 16)]
def wSetlen : Nat := word [(0, 5), (32, 0), (40, 10), (57, 7)]
def wLdt : Nat := word [(0, 7), (24, 256), (52, 1), (85, 2)]
def wStt : Nat := word [(0, 8), (24, 256), (52, 1), (85, 2)]
def wShl : Nat := word [(0, 9), (32, 0), (52, 1)]
def wWms : Nat := word [(0, 10), (24, 1), (40, 5)]
def wWmw : Nat := word [(0, 11), (24, 1), (40, 0)]
def wGate : Nat := word [(0, 11), (4, 1), (24, 4), (40, 1)]
def wCfa (op value : Nat) : Nat := word [(0, 12), (4, op), (24, 1), (40, value), (72, 2)]
def wEnd : Nat := word [(0, 14)]

def winCsp : Mem := csp [(1024, winDesc 0 0)]

def wMx : Nat := word [(0, 1), (24, 8), (28, 8), (52, 32), (80, 2), (88, 4), (103, 64)]

theorem test_prefix_issues : issues (runs [wPrefix, wMx] []) .prefix_ wPrefix 0 0 any = true := by decide +kernel
theorem test_mxm_issues : issues (runs [wMxm] []) .mxm wMxm 0 0 (fun s => (mxmLens s.k.run 0 wMxm).isSome) = true := by
  decide +kernel
theorem test_cnv_issues : issues (runs [wCnv] winCsp) .cnv wCnv 0 0
    (fun s => (s.win wCnv).isSome && (winN s.k.run 0 wCnv false).isSome) = true := by decide +kernel
theorem test_dwc_issues : issues (runs [wDwc] winCsp) .dwc wDwc 0 0
    (fun s => (s.win wDwc).isSome && (winN s.k.run 0 wDwc true).isSome) = true := by decide +kernel
theorem test_plx_issues :
    issues (runs [wPlx] (csp [(1024, winDesc 4096 64)])) .plx wPlx 0 0 (fun s => (s.win wPlx).isSome) = true := by decide +kernel
theorem test_setlen_issues : issues (runs [wSetlen] []) .setlen wSetlen 0 0 any = true := by decide +kernel
theorem test_cvt_issues :
    issues (vecRuns 5 0x01 0 0 [0, 0, 0, 0] [14, 0, 0, 7] 0 0) .cvt (vecWord 5 0x01 0 0) 0 0 any = true := by
  decide +kernel
theorem test_arith_issues :
    issues (vecRuns 5 0x02 0 1 [0, 0, 0, 0] [14, 14, 0, 14] 0 0) .arith (vecWord 5 0x02 0 1) 0 0 any = true := by
  decide +kernel
theorem test_function_issues :
    issues (vecRuns 5 0x10 0 0 [0, 0, 0, 0] [14, 0, 0, 14] 0 0) .function (vecWord 5 0x10 0 0) 0 0 any = true := by
  decide +kernel
theorem test_compare_issues :
    issues (vecRuns 5 0x0A 0 1 [0, 0, 0, 0] [14, 14, 0, 1] 0 0) .compare (vecWord 5 0x0A 0 1) 0 0 any = true := by
  decide +kernel
theorem test_rqnt_issues :
    issues (vecRuns 5 0x0F 1 0 [0, 3, 3, 0] [15, 15, 15, 0] 0 0) .rqnt (vecWord 5 0x0F 1 0) 0 0 any = true := by
  decide +kernel
theorem test_softmax_issues :
    issues (vecRuns 5 0x20 0 0 [0, 0, 0, 8] [14, 0, 0, 14] 0 0) .softmax (vecWord 5 0x20 0 0) 0 0 any = true := by
  decide +kernel
theorem test_layernorm_issues :
    issues (vecRuns 5 0x21 0 0 [0, 8, 8, 3] [14, 14, 14, 14] 0 0) .layernorm (vecWord 5 0x21 0 0) 0 0 any = true := by
  decide +kernel
/-- NMS leaves A's and the destination's pitch 0 (R208). -/
def nmsRuns : Dev :=
  runs [vecWord 5 0x22 0 0] (csp [(1024, vecDesc [0, 0, 0, 3] [14, 0, 0, 0] 8192 8256), (1024 + 20, zeros 4)])

theorem test_nms_issues : issues nmsRuns .nms (vecWord 5 0x22 0 0) 0 0 any = true := by
  decide +kernel
theorem test_reduce_issues :
    issues (vecRuns 6 0 0 0 [0, 0, 0, 0] [14, 0, 0, 14] 0 0) .reduce (vecWord 6 0 0 0) 0 0 any = true := by
  decide +kernel
theorem test_topk_issues :
    issues (vecRuns 6 7 0 0 [0, 0, 0, 0] [14, 0, 0, 14] 8192 0) .topk (vecWord 6 7 0 0) 0 0 any = true := by
  decide +kernel
theorem test_ldt_issues :
    issues (runs [wLdt] []) .ldt wLdt 0 0 (fun s => (xferPlan s 0 wLdt).isSome) = true := by decide +kernel
theorem test_stt_issues :
    issues (runs [wStt] []) .stt wStt 0 0 (fun s => (xferPlan s 0 wStt).isSome) = true := by decide +kernel
theorem test_shl_issues : issues (runs [wShl] []) .shl wShl 0 0 any = true := by decide +kernel
theorem test_wms_issues : issues (runs [wWms] []) .wms wWms 0 0 any = true := by decide +kernel
theorem test_wmw_issues : issues (runs [wWmw] []) .wmw wWmw 0 0 any = true := by decide +kernel
theorem test_gate_issues :
    issues (runs [wGate] []) .gate wGate 0 0 (fun s => (s.gateFor 4).isSome) = true := by decide +kernel
theorem test_cfaAdd_issues :
    issues (runs [wCfa 0 3] []) .cfaAdd (wCfa 0 3) 0 0 (fun s => s.k.run.lrs.length == 8) = true := by
  decide +kernel
theorem test_cfaLoad_issues : issues (runs [wCfa 1 0] []) .cfaLoad (wCfa 1 0) 0 0 any = true := by decide +kernel
theorem test_cfaInit_issues : issues (runs [wCfa 2 3] []) .cfaInit (wCfa 2 3) 0 0 any = true := by decide +kernel
theorem test_end_issues : issues (runs [wEnd] []) .end_ wEnd 0 0 any = true := by decide +kernel

/-- A digest point of a layer of 4 elements of 8 bits at byte 0 (R323). -/
def dig0 : DigOpen :=
  { entry := 0, layer := 3, base := 0, pitch := 64, rows := 1, fmt := 0, elems := 4, origin := 0, stride := 0, lr := none
    lrScale := 0, dsum := 0, dxor := 0, count := 0 }

def digRuns (ws : List Nat) (open_ : Option DigOpen) : Dev :=
  let d := runs ws []
  { d with
    ctxs := d.ctxs.map fun x => { x with mf := { x.mf with digs := [(0, dig0)] } }
    cores := modAt (fun k => { k with mem := { k.mem with dig := open_ } }) 0 d.cores }

def wDgp : Nat := word [(0, 13)]

theorem test_dgp_issues : issues (digRuns [wDgp] (some dig0)) .dgp wDgp 0 0 (fun s => s.k.mem.dig == some dig0) = true := by
  decide +kernel
theorem test_dgp_issues_with_no_entry :
    issues (digRuns [wDgp] none) .dgp wDgp 0 0 (fun s => s.k.mem.dig == none) = true := by decide +kernel
theorem test_dgp_issues_with_a_ring : issues { digRuns [wDgp] (some dig0) with
      parts := { part0 with dauCtl := 1, dgRing := 4 * 2 ^ 48 + 2 ^ 20 } :: ((upTo 6).drop 1).map Part.reset } .dgp wDgp 0 0
    (fun s => bitAt s.p.dauCtl 0 && (ringSlot s.p.dgRing 4 20 32 s.p.granted s.p.dgNext).isSome) = true := by decide +kernel

/-! ### WellFormed: an ill-formed command for each check, and a well-formed one beside it -/

theorem test_wf_core : (Instr.nop 5).wf = true ∧ (Instr.nop 6).illFormed = some "core" := by decide
theorem test_wf_function : (Instr.flr 6).wf = true ∧ (Instr.flr 7).illFormed = some "function" := by decide
theorem test_wf_partition : (Instr.jobStart 5).wf = true ∧ (Instr.jobStart 6).illFormed = some "partition" := by decide
theorem test_wf_owner_bound : (Instr.lullEnd 7).wf = true ∧ (Instr.lullEnd 8).illFormed = some "owner" := by decide
theorem test_wf_decode_engine :
    (Instr.decodeStart 7).wf = true ∧ (Instr.decodeStart 8).illFormed = some "decode engine" := by
  decide
theorem test_wf_encode_engine :
    (Instr.encodeStart 1).wf = true ∧ (Instr.encodeStart 2).illFormed = some "encode engine" := by
  decide
theorem test_wf_tensor_unit : (Instr.pscPassStart 3).wf = true ∧
    (Instr.pscPassStart 4).illFormed = some "scale-and-tensorise unit" := by decide
theorem test_wf_crop_unit :
    (Instr.cropTaskStart 1).wf = true ∧ (Instr.cropTaskStart 2).illFormed = some "crop-resize unit" := by
  decide
theorem test_wf_controller : firstBad [(.mc, 7)] = none ∧ firstBad [(.mc, 8)] = some "memory controller" := by decide
theorem test_wf_pseudo_channel : (Instr.patrolScrub 255 0 none).wf = true ∧
    (Instr.patrolScrub 256 0 none).illFormed = some "pseudo-channel" := by decide
theorem test_wf_stream : (Instr.pictureGoForward 16383).wf = true ∧
    (Instr.pictureGoForward 16384).illFormed = some "stream" := by decide
theorem test_wf_slot : (Instr.trackerPicture 0 3).wf = true ∧ (Instr.trackerPicture 0 4).illFormed = some "route slot" := by
  decide
theorem test_wf_route :
    (Instr.routeBind 0 65535 0).wf = true ∧ (Instr.routeBind 0 65536 0).illFormed = some "route" := by decide
theorem test_wf_queue :
    (Instr.recordWrite 1048575).wf = true ∧ (Instr.recordWrite 1048576).illFormed = some "queue" := by decide
theorem test_wf_waymark : (Instr.waymarkSignal 0 65535 1).wf = true ∧
    (Instr.waymarkSignal 0 65536 1).illFormed = some "waymark" := by decide
theorem test_wf_zone : (Instr.zoneSelect 0 4095).wf = true ∧ (Instr.zoneSelect 0 4096).illFormed = some "zone" := by decide
theorem test_wf_tag : (Instr.sleep 255).wf = true ∧ (Instr.sleep 256).illFormed = some "tag" := by decide
theorem test_wf_channel : (Instr.migrationStart 127 false).wf = true ∧
    (Instr.migrationStart 128 false).illFormed = some "channel" := by decide
theorem test_wf_steward :
    (Instr.stewardWatchdog 2).wf = true ∧ (Instr.stewardWatchdog 3).illFormed = some "steward" := by decide
theorem test_wf_vector_bound :
    (Instr.msixUnmask 0 2047).wf = true ∧ (Instr.msixUnmask 0 2048).illFormed = some "vector" := by
  decide
theorem test_wf_place : (Instr.transferRelease 0 15).wf = true ∧
    (Instr.transferRelease 0 16).illFormed = some "queue place" := by decide
theorem test_wf_table : (Instr.tableBaseWrite 0 3 .full 0).wf = true ∧
    (Instr.tableBaseWrite 0 4 .full 0).illFormed = some "table" := by decide
theorem test_wf_depot : (Instr.freeListRebuildDone 255).wf = true ∧
    (Instr.freeListRebuildDone 256).illFormed = some "depot" := by decide
theorem test_wf_class :
    (Instr.cacheTtlExpire 7 0).wf = true ∧ (Instr.cacheTtlExpire 8 0).illFormed = some "VIDEO class" := by
  decide
theorem test_wf_register : (Instr.registerWrite 0 0x3FFFFF8 .full 0).wf = true ∧
    (Instr.registerWrite 0 0x4000000 .full 0).illFormed = some "register" ∧
    (Instr.registerWrite 1 0x100000 .full 0).illFormed = some "register" ∧
    (Instr.registerWrite 0 0x30028 .full 1).illFormed = some "register" ∧
    (Instr.registerWrite 0 0x30028 .full 5).wf = true := by decide
theorem test_wf_no_owner_six :
    (Instr.refreshLull 6).illFormed = some "owner" ∧ (Instr.retrainLull 6).illFormed = some "owner" ∧
    (Instr.forcedLull 6).illFormed = some "owner" ∧ (Instr.lullEnd 6).illFormed = some "owner" ∧
    (Instr.refreshLullEnd 6).illFormed = some "owner" ∧ (Instr.retrainDue 6).illFormed = some "owner" := by decide
theorem test_wf_line : (Instr.patrolScrub 0 1207959488 none).wf = true ∧
    (Instr.patrolScrub 0 1207959552 none).illFormed = some "line" ∧ (Instr.patrolScrub 0 32 none).illFormed = some "line" ∧
    (Instr.hbmReadRetry 0 32 .lost .scrub).illFormed = some "line" := by decide
theorem test_wf_bar2 :
    (Instr.bar2Read 1 0x3FFFFFFFF 1).wf = true ∧ (Instr.bar2Read 1 0x3FFFFFFFF 2).illFormed = some "BAR2 byte" ∧
    (Instr.bar2Read 0 0 0).illFormed = some "BAR2 byte" ∧ (Instr.bar2Read 0 0 4097).illFormed = some "BAR2 byte" ∧
    (Instr.bar2Write 1 0x400000000 [0] false).illFormed = some "BAR2 byte" ∧
    (Instr.bar2Write 1 0x3FFFFFFFF [0] false).wf = true := by decide
theorem test_wf_vf_vector :
    (Instr.msixUnmask 1 63).wf = true ∧ (Instr.msixUnmask 1 64).illFormed = some "vector" := by decide
theorem test_wf_link_rate :
    (Instr.pcieLinkUp 6 16 true).wf = true ∧ (Instr.pcieLinkUp 6 16 false).illFormed = some "link rate" ∧
    (Instr.pcieLinkUp 7 16 true).illFormed = some "link rate" ∧ (Instr.pcieLinkUp 0 16 true).illFormed = some "link rate" ∧
    (Instr.pcieLinkUp 1 17 false).illFormed = some "link rate" := by decide
theorem test_wf_virtual_functions : (Instr.vfEnableSet 6).wf = true ∧
    (Instr.vfEnableSet 7).illFormed = some "virtual function" := by decide

/-! ### Witnesses: the machine, the leeward domain, clocks and coolant -/

/-- A command completes from `d`. -/
def runsFrom (c : Instr) (d : Dev) : Bool := match exec c (st d) with | .next _ => true | _ => false

def clocked (d : Dev) : Dev := { d with ticks := 10 ^ 9, run := 10 ^ 9, coreRun := 64 * 10 ^ 9 }
def lwd (d : Dev) (f : Lwd → Lwd) : Dev := { d with lwd := f d.lwd }
def asleep : Dev := lwd up fun l => { l with st := .leeward }
def watch : Filter := { ix := 0, cfg := 1 + 2 ^ 31, bounds := 0, avg := 0, hits := 0, baseline := 0, last := 0 }

theorem test_hyp_queue_untouched : runsFrom (.sleep 1) up = true := by decide +kernel
theorem test_hyp_queue_wf : ∀ c ∈ [Instr.sleep 1, .wake 255], c.wf = true := by decide
theorem test_hyp_sleep_wake :
    up.serves 0 .lwd = true ∧ up.lwd.st = .active ∧ up.boot = .done ∧ up.lwd.tripped = false := by decide
theorem test_hyp_sleep_wake_asleep :
    asleep.serves 0 .lwd = true ∧ asleep.lwd.st ≠ .active ∧ asleep.lwd.st = .leeward := by decide
theorem test_hyp_wake_tripped : (lwd asleep fun l => { l with tripped := true }).serves 0 .lwd = true := by decide
theorem test_hyp_wake_draining : (lwd up fun l => { l with st := .draining }).serves 0 .lwd = true := by decide
theorem test_wake_in_the_filters_lk :
    (match exec (.wake 1) (st (lwd up fun l => { l with st := .waking, cause := 2, ms := 1, lk := 7, wakeLk := 52007 })) with
    | .next t => t.dev.lwd.cause == 1
    | _ => false) = true := by decide +kernel
theorem test_sleep_drains : (match exec (.sleep 9) (st up) with
    | .next t => t.dev.lwd.st == .draining && t.dev.lwd.result == 0 && t.dev.lwd.tag == 9
    | _ => false) = true := by decide +kernel
theorem test_hyp_notice_ignored : up.lwd.st ≠ .leeward := by decide
theorem test_hyp_notice_watched :
    (lwd asleep fun l => { l with filters := [{ watch with cfg := 2 ^ 63 - 1 }], noticeLo := 0x3FFF }).lwd.filters.any
    (fun f => f.enabled && f.stream == bits 0x3FFF 0 14) = true := by decide
theorem test_hyp_filter_reached : watch.baseline * watch.ratio * 16 ≤ (watch.note false 100 5).1.avg := by decide
theorem test_hyp_filter_below : let w : Filter := { watch with baseline := 100, cfg := 2 ^ 40 - 1 }
    (w.note false 0 5).1.avg < w.baseline * w.ratio * 16 := by decide
theorem test_hyp_filter_write : up.serves 0 .lwd = true := by decide
theorem test_hyp_wake_timer : let d := lwd asleep fun l => { l with wakeAt := 5, ms := 5 }
    d.boot = .done ∧ d.lwd.tripped = false ∧ d.lwd.st = .leeward ∧ d.lwd.wakeAt ≠ 0 ∧ d.lwd.wakeAt ≤ d.lwd.ms ∧
    d.lwd.wakeHeld = false := by decide
theorem test_hyp_wake_complete :
    runsFrom .wakeComplete (lwd up fun l => { l with st := .waking }) = true := by decide +kernel
theorem test_hyp_throttle : up.mainUp = true := by decide
theorem test_throttle_protection :
    (match exec (.throttleUpdate { watts := 1200, tjMax := 60, stackTemps := [] }) (st up) with
    | .next t => t.dev.clk.level == 8 && t.dev.clk.powerProt && !t.dev.clk.thermalProt
    | _ => false) = true := by decide +kernel
theorem test_hyp_coolant : up.pins.leewardRail = true ∧ up.lwd.st ≠ .off := by decide
theorem test_hyp_coolant_leak : let d := lwd up fun l => { l with leakRun := 2 }
    3 ≤ d.lwd.leakRun + 1 ∧ bitAt d.lwd.coolant 33 = false ∧ bits d.lwd.coolantPolicy 12 2 ≠ 0 ∧ d.lwd.st = .active := by decide
theorem test_hyp_trip : up.boot = .done ∧ up.lwd.st ≠ .off ∧ up.lwd.tripped = false := by decide
theorem test_trip_asserts_its_pin : (match exec .thermalTrip (st up) with
    | .next t => t.dev.pins.thermtrip && t.dev.lwd.tripped && t.dev.lwd.st == .leeward
    | _ => false) = true := by decide +kernel
theorem test_hyp_boot_reference : runsFrom .refLost { Dev.reset with boot := .booting true 0 } = true := by decide +kernel
theorem test_hyp_unpowered : let d := { Dev.reset with pins := { Pins.reset with leewardRail := false } }
    runsFrom .resetNAssert d = true ∧
    runsFrom .leewardRailUp { d with pins := { d.pins with resetN := true } } = true := by decide +kernel
theorem test_hyp_reference : up.mainUp = true ∧ up.clk.refPresent = true ∧
    runsFrom .refLost up = true ∧ runsFrom .refReturn { up with clk := { up.clk with refPresent := false } } = true := by
  decide +kernel
theorem test_hyp_drain : let d := lwd up fun l => { l with st := .draining }
    d.boot = .done ∧ d.lwd.st = .draining ∧ d.drained = true ∧ d.video.clips = [] := by decide

/-! ### Witnesses: pins, boot, firmware, link, functions -/

def pins (d : Dev) (f : Pins → Pins) : Dev := { d with pins := f d.pins }
def sec (d : Dev) (f : Sec → Sec) : Dev := { d with sec := f d.sec }
def fn0 (d : Dev) (f : Fn → Fn) : Dev := d.modFn 0 f

theorem test_hyp_resets : up.pins.resetN = false ∧ up.pins.leewardRail = true ∧ up.pins.perst = false ∧
    up.serves 0 .glb = true ∧ up.pins.mainGood = true := by decide
theorem test_hyp_reset_allows_boot : PinsAllowBoot up.pins := by simp [PinsAllowBoot]; decide
theorem test_hyp_power_rises : (pins up fun p => { p with mainGood := false }).pins.mainGood = false := by decide
theorem test_hyp_power_loss : up.pins.mainGood = true ∧ up.pins.undervolt = false ∧ up.pins.leewardRail = true ∧
    (pins up fun p => { p with leewardRail := false }).pins.leewardRail = false := by decide
theorem test_cold_reset_boots : (match exec (.globalColdReset 0x434F4C4400000001#64) (st up) with
    | .next t => t.dev.boot == .booting true 2 && t.dev.fns == Dev.reset.fns
    | _ => false) = true := by decide +kernel
theorem test_hyp_pin_released : let d : Dev := { pins up fun p => { p with resetN := true } with boot := .held }
    d.pins.resetN = true ∧ d.boot = .held ∧ runsFrom .resetNDeassert d = true := by decide +kernel
theorem test_hyp_perst_released : let d : Dev := { pins up fun p => { p with perst := true } with boot := .held }
    d.pins.perst = true ∧ d.boot = .held ∧ runsFrom .perstDeassert d = true := by decide +kernel
theorem test_hyp_pin_releases_nothing : let d := pins up fun p => { p with resetN := true, perst := true }
    d.pins.resetN = true ∧ d.boot ≠ .held := by decide
theorem test_hyp_boot_parks : (lwd Dev.reset fun l => { l with tripped := true }).lwd.tripped = true ∧
    ({ Dev.reset with boot := BootPhase.booting false 1 } : Dev).boot = .booting false 1 := by decide
theorem test_hyp_boot_recovers : Dev.reset.boot = .booting true 0 ∧ Dev.reset.lwd.tripped = false := by decide
theorem test_hyp_sec : up.serves 0 .sec = true ∧ up.sec.cmd = none ∧ up.boot ≠ .recovery ∧ up.charter.st = .empty ∧
    up.sec.addr % 4096 = 0 := by decide
theorem test_hyp_sec_recovery : let d : Dev := { up with boot := .recovery }
    d.serves 0 .sec = true ∧ d.boot = .recovery := by decide
theorem test_hyp_sec_span :
    up.sec.imageSpan = false ∧ (sec up fun s => { s with addr := 4096, len := 0x2000 }).sec.imageSpan = true := by
  decide +kernel
def upd : SecCmd := { op := 1, tag := 1, image := [], result := 0, check := 0, detail := 0 }
theorem test_hyp_sec_busy : let d := sec up fun s => { s with cmd := some upd }
    d.sec.cmd = some upd ∧ upd.op ≠ 3 ∧ upd.op ≠ 4 ∧ d.sec.down.contains 2 = false ∧ runsFrom .secCommandDone d = true := by
  decide +kernel
theorem test_hyp_sec_charter : sealed.charter.st ≠ .empty ∧ sealed.serves 0 .sec = true := by decide
theorem test_hyp_steward : up.mainUp = true ∧ up.sec.down.contains 1 = false ∧
    (sec up fun s => { s with down := [1] }).sec.down.contains 1 = true ∧
    (sec up fun s => { s with down := [2] }).sec.down.contains 2 = true ∧
    (sec up fun s => { s with down := [2] }).mainUp = true := by decide
theorem test_hyp_store : up.mainUp = true ∧ up.sec.down.contains 2 = false ∧ up.sec.storeBank < 2 ∧
    memWf up.sec.flash = true ∧ 184 + 8 * up.mem.repairs.length ≤ 61440 := by decide
theorem test_hyp_attestation : up.mainUp = true ∧ up.sec.down.contains 2 = false ∧ asleep.mainUp = false := by decide

def linked : Dev := { up with link := { up.link with speed := 6, width := 16, l0pLanes := 16, flit := true, ltssm := 2 } }

theorem test_hyp_link : up.boot ≠ .held ∧ up.pins.perst = false ∧ up.link.ltssm = 0 ∧ linked.link.ltssm = 2 ∧
    linked.linkIdle = true := by decide +kernel
theorem test_link_trains_degraded : (match exec (.pcieLinkUp 3 8 false) (st up) with
    | .next t => t.dev.link.degraded && t.dev.link.ltssm == 2 && t.dev.link.width == 8
    | _ => false) = true := by decide +kernel
theorem test_hyp_l0p : let d : Dev := { linked with link := { linked.link with powerCtl := linked.link.powerCtl + 2 ^ 16 } }
    d.link.ltssm = 2 ∧ bitAt d.link.powerCtl 16 = true ∧ d.link.narrow < d.link.l0pLanes := by decide
theorem test_hyp_config : ConfigReady up 1 := by simp [ConfigReady]; decide
theorem test_hyp_no_vfs : let d : Dev := { up with fns := Dev.reset.fns }
    d.vfs = [] ∧ d.fns.length = 7 ∧ (d.fn 0).present = true ∧ up.vfs ≠ [] := by decide
theorem test_vf_enable : (match exec (.vfEnableSet 2) (st { up with fns := Dev.reset.fns }) with
    | .next t => (t.dev.fn 2).present && !(t.dev.fn 3).present
    | _ => false) = true := by decide +kernel
theorem test_hyp_enables : (∀ x ∈ up.ctxs, OfFunction up x 1 = false) ∧ (up.fn 1).stopped = [] ∧ (up.fn 1).overflow = [] ∧
    up.video.clips = [] ∧ (up.fn 1).d3 = false ∧ (up.fn 1).bme = true := by decide
theorem test_hyp_enables_off : let d := fn0 up fun x => { x with d3 := true, bme := false }
    (d.fn 0).d3 = true ∧ (d.fn 0).bme = false ∧ (d.fn 0).present = true := by decide
theorem test_hyp_verdict_lane : let d := pins up fun p => { p with ethModAbs := false }
    d.pins.leewardRail = true ∧ d.lwd.st ≠ .off ∧ d.pins.ethModAbs = false ∧ d.vpt.linkUp = false ∧ up.pins.ethModAbs = true ∧
    ({ d with vpt := { d.vpt with linkUp := true } } : Dev).vpt.linkUp = true := by decide

/-! ### Witnesses: registers, apertures, memory -/

theorem test_hyp_closed : (up.fn 2).present = false ∧ (Dev.reset.fn 0).present = true ∧ (Dev.reset.fn 0).mse = false ∧
    (Instr.sleep 1).wf = true ∧ writtenBy (.sleep 1) = some 0 := by decide
theorem test_hyp_closed_d3 : let d := fn0 up fun x => { x with d3 := true }
    (d.fn 0).present = true ∧ (d.fn 0).d3 = true ∧ (Instr.registerWrite 0 8 .full 1).wf = true := by decide
theorem test_half_write : rwWrite .low (2 ^ 64 - 1) 0x1111111122222222 0xAAAAAAAA = 0x11111111AAAAAAAA ∧
    rwWrite .high (2 ^ 64 - 1) 0x1111111122222222 0xAAAAAAAA = 0xAAAAAAAA22222222 := by decide
theorem test_hyp_register : up.serves 0 .glb = true ∧ (0x29 : Nat) % 8 ≠ 0 ∧
    0x29 < bar0Size 0 := by decide
theorem test_hyp_register_hole : up.regAt 0 0xFF8 = none ∧ up.serves 0 (pageAt 0 0xFF8) = true := by
  decide +kernel
theorem test_hyp_scratch : sealed.regAt 1 0x28 = some .glbScratch ∧ sealed.serves 1 (pageAt 1 0x28) = true := by
  decide +kernel
theorem test_scratch : (match exec (.registerWrite 1 0x28 .full 7) (st up) with
    | .next t => (t.dev.fn 1).scratch == 7 && (t.dev.fn 0).scratch == 0
    | _ => false) = true := by decide +kernel
def busyPart : Dev := { sealed with ctxs := [ctx0 [0] [(4096, 1)]] }
theorem test_hyp_ring : sealed.regAt 0 0x102010 = some (.dspFaultRing 0) ∧ sealed.serves 0 (pageAt 0 0x102010) = true ∧
    sealed.ctxs = [] ∧ busyPart.regAt 0 0x102010 = some (.dspFaultRing 0) ∧
    (∃ x ∈ busyPart.ctxs, x.entry.part = 0) := by decide +kernel
theorem test_hyp_table : up.tableInUse 0 1 = false ∧ up.serves 0 .rest = true ∧ 0 < up.fns.length ∧
    ({ sealed with queues := [{ id := 0, fn := 0, desc := zeros 64, st := .enabled, driver := 0, device := 0, disabling := false
                                sinceIrq := 0, firstTick := none, waits := none }] } : Dev).tableInUse 0 0 = true := by
  decide +kernel
theorem test_hyp_error_log : up.serves 1 .rest = true ∧ 1 < up.fns.length ∧ (up.fn 1).errLog = [] ∧
    ((fn0 up fun x => { x with errLog := [5, 6] }).fn 0).errLog = [5, 6] ∧ (up.fn 1).errRead = none ∧
    ((fn0 up fun x => { x with errLog := [5, 6], errRead := some .low }).fn 0).errRead = some .low := by decide
theorem test_error_log_halves : (match exec (.errorLogRead 0 .high)
      (st (fn0 up fun x => { x with errLog := [5, 6], errRead := some .low })) with
    | .next t => t.dev.bus == [.data 0 (le 4 (2 ^ 31))] && (t.dev.fn 0).errLog == [6]
    | _ => false) = true := by decide +kernel
theorem test_hyp_reads : up.serves 0 (pageAt 0 0x28) = true ∧ pageAt 0 0x28 = .glb ∧ up.serves 2 (pageAt 2 0x28) = false ∧
    asleep.serves 0 (pageAt 0 0x100000) = false ∧ ConfigReady up 0 := by simp [ConfigReady]; decide +kernel
/-- GLB_ID of the PF: 0x1FB8, 0x6800 and revision 0xB0 (R519). -/
theorem test_glb_id : up.registerRead 0 0 .low = 0x68001FB8 ∧ up.registerRead 0 0 .high % 256 = 0xB0 ∧
    up.registerRead 0 0x1000 .full = 0 := by decide +kernel
def apertures (l : List Nat) : Dev := fn0 sealed fun x => { x with apertures := l }
/-- Aperture 0 on the COMMON grant, 1 on partition 0, 2 on staging. -/
def open3 : Dev := apertures [1, 2, 3, 0]
theorem test_hyp_bar2 : open3.serves 0 .rest = true ∧ open3.barByte 0 5 = some (.common 5) ∧
    open3.barByte 0 (2 ^ 34 + 5) = some (.part 0 5) ∧ open3.barByte 0 (2 * 2 ^ 34 + 5) = some (.staging 5) ∧
    open3.barByte 0 (3 * 2 ^ 34) = none ∧ (open3.fn 0).bar2Denied = 0 := by decide +kernel
theorem test_bar2_reaches_its_partition : (match exec (.bar2Write 0 (2 ^ 34 + 300) [7] false) (st open3) with
    | .next t => t.dev.ownerRead 0 300 1 == [7] && t.dev.ownerRead 0 44 1 == [0]
    | _ => false) = true := by decide +kernel
theorem test_hyp_interleave : [0, 1].Nodup ∧ 5 < [0, 1].length * pcSize := by decide
theorem test_hyp_owners : memWf sealed.mem.hbm = true ∧ (sealed.pcs 0).Nodup ∧ (∀ c ∈ sealed.pcs 0, c ∉ sealed.pcs 7) ∧
    5 + 4 ≤ sealed.spaceLen 0 := by decide +kernel
theorem test_hyp_bar2_isolation :
    let d : Dev := { open3 with mem := { open3.mem with lists := [(0, [0, 1]), (1, [4]), (7, [2, 3])] } }
    (∀ p, p < 6 → (d.part? p).any (·.owner == 0) = true → ∀ c ∈ d.pcs p, c ∉ d.pcs 1) ∧
    (∀ c ∈ d.pcs commonOwner, c ∉ d.pcs 1) ∧ memWf d.mem.hbm = true := by decide +kernel

/-! ### Witnesses: queues, records, interrupts, depots -/

/-- A descriptor of type `ty` with 16 entries (R444). -/
def desc (ty vec partner ring head : Nat) : List Byte :=
  le 1 ty ++ le 1 4 ++ le 2 vec ++ le 4 partner ++ le 8 ring ++ le 8 head ++ le 2 1 ++ le 2 10 ++ le 1 1 ++ zeros 35

def cq : Queue :=
  { id := 1, fn := 0, desc := desc 4 3 0 0x10000 0, st := .enabled, driver := 0, device := 0, disabling := false, sinceIrq := 0
    firstTick := none, waits := none }

def sq : Queue :=
  { id := 2, fn := 0, desc := desc 2 0xFFFF 1 0x20000 0x30000, st := .enabled, driver := 2, device := 0, disabling := false
    sinceIrq := 0, firstTick := none, waits := none }

/-- The sealed device with a CQ, queue 1, and a JOB SQ, queue 2. -/
def queued : Dev := { sealed with queues := [cq, sq] }

def withQ (f : Queue → Queue) : Dev := queued.modQueue 1 f

def tabled : Dev := sealed.commonWrite 0 (64 * 3) (desc 4 3 0 0x10000 0)

theorem test_hyp_enable : tabled.serves 0 .rest = true ∧ (tabled.fn 0).queueSts.busy = false ∧ tabled.sealed = true ∧
    tabled.ownsQueue 0 3 = true ∧ tabled.qstate 3 = 0 ∧ (tabled.fn 0).qdBase + 64 * 3 + 64 ≤ (tabled.commonGrant 0).2 ∧
    tabled.descOk 0 (tabled.commonRead 0 (64 * 3) 64) = true := by decide +kernel
theorem test_hyp_enable_fails : up.sealed = false ∧ queued.ownsQueue 0 8 = false ∧ queued.qstate 1 ≠ 0 ∧
    sealed.descOk 0 (sealed.commonRead 0 0 64) = false ∧ sealed.qstate 0 = 0 := by decide +kernel
theorem test_enable : (match exec (.queueEnable 0 3 9) (st tabled) with
    | .next t => t.dev.qstate 3 == 1 && (t.dev.fn 0).queueSts.result == 0 && (t.dev.fn 0).queueSts.tag == 9
    | _ => false) = true := by decide +kernel
theorem test_hyp_ports_free :
    Busy tabled 0 .queue = false ∧ Busy queued 0 .queue = false ∧ queued.serves 0 .rest = true := by
  decide +kernel
/-- Every command register of the function still BUSY with the command before. -/
def engaged : Dev := fn0 queued fun x => [.stream, .clip, .route, .ctx, .queue].foldl (fun x p =>
  x.modCmd p fun c => { c with until_ := 9 }) x
theorem test_hyp_ports_busy :
    ∀ c ∈ [Instr.streamOpen 0 3 1, .clipStart 0 2 0 1, .routeBind 0 2 1, .preempt 0 0 1, .queueQuery 0 1 1],
    engaged.serves 0 .rest = true ∧ (portOf c).any (fun q => q.1 == 0 && Busy engaged 0 q.2) = true := by decide +kernel
theorem test_hyp_queue_busy : let d := fn0 queued fun x => { x with queueSts := { x.queueSts with busy := true } }
    d.serves 0 .rest = true ∧ d.ownsQueue 0 1 = true ∧ d.queue? 1 = some cq ∧ (d.fn 0).queueSts.busy = true := by decide +kernel
theorem test_hyp_queue_commands :
    queued.queue? 2 = some sq ∧ sq.st ≠ .disabled ∧ sq.type ≠ 4 ∧ sq.st ≠ .error ∧ cq.type = 4 ∧
    queued.namesCq 1 = true := by decide +kernel
theorem test_hyp_queue_states : (withQ fun x => { x with st := .error }).queue? 1 = some { cq with st := .error } ∧
    (withQ fun x => { x with st := .disabled }).queue? 1 = some { cq with st := .disabled } := by decide +kernel
def rec1 : DueRec := { fn := 0, queue := 1, bytes := zeros 128, last := none }
def alone : Dev := { queued with queues := [cq] }
def owing : Dev := { alone with due := [rec1] }
theorem test_hyp_disable_waits : alone.namesCq 1 = false ∧ alone.owesRecords 0 1 = false ∧ owing.namesCq 1 = false ∧
    owing.owesRecords 0 1 = true := by decide +kernel
theorem test_hyp_disable_ends :
    runsFrom (.cqDisableComplete 1) { alone with queues := [{ cq with disabling := true }] } = true := by
  decide +kernel
theorem test_hyp_doorbells : queued.serves 0 .rest = true ∧ queued.ownsQueue 0 2 = true ∧ queued.queue? 2 = some sq ∧
    sq.badBell 3 = false ∧ sq.badBell 16 = false ∧ sq.badBell 17 = true := by decide +kernel
theorem test_doorbell_error : (match exec (.doorbellWrite 0 2 .full 17) (st queued) with
    | .next t => t.dev.qstate 2 == 2 && (t.dev.fn 0).doorbellErrors == 1
    | _ => false) = true := by decide +kernel
theorem test_hyp_record : owing.mainUp = true ∧ owing.nextDue 1 = some rec1 ∧ owing.direct rec1 = true := by decide +kernel
theorem test_record_slot :
    (match exec (.recordWrite 1) (st { owing with queues := [{ cq with device := 17, driver := 17 }] }) with
    | .next t => t.dev.bus.head? == some (.write 0 (0x10000 + 128) (le 4 17 ++ zeros 124)) && t.dev.due == []
    | _ => false) = true := by decide +kernel

def depot (id count : Nat) : Depot :=
  { id := id, bufKib := 64, count := count, minA := 0, minB := 0, hw1 := 90, hw2 := 95, hyst := 5, base := 2 ^ 20
    free := upTo count, held := [], res := [], records := 0, h1 := false, h2 := false, seen1 := false, seen2 := false
    rebuild := false, peak := 0, ev1 := 0, ev2 := 0, tagErr := 0 }

def full : Dev := { owing with queues := [{ cq with device := 16 }], depots := [depot (overflowDepot 0) 8] }
theorem test_hyp_record_overflows : full.direct rec1 = false ∧ full.overflowRoom 0 = true ∧ full.nextDue 1 = some rec1 := by
  decide +kernel
def spilled : Dev := fn0 { alone with depots := [{ depot (overflowDepot 0) 8 with records := 1 }] } fun x =>
  { x with overflow := [{ queue := 1, bytes := zeros 128 }] }
theorem test_hyp_drains : spilled.mainUp = true ∧ spilled.queue? 1 = some cq ∧ spilled.cqFree cq = true ∧
    ((spilled.fn 0).overflow.find? (·.queue == 1)).isSome = true ∧ runsFrom (.overflowDrain 1) spilled = true := by decide +kernel
def late : Dev := { alone with queues := [{ cq with sinceIrq := 1, firstTick := some 0 }], ticks := 10 ^ 6 }
theorem test_hyp_coalesce : late.mainUp = true ∧ 0 + cq.coalesceUs * usTicks ≤ late.ticks ∧ cq.vector = 3 ∧
    cq.vector < vecCount 0 ∧ late.mayRequest 0 = true ∧ bitAt ((late.fn 0).entry 3).ctl 0 = true ∧
    runsFrom (.msixCoalesceTimeout 1) late = true := by decide +kernel
def unmasked : Dev := fn0 late fun x => { x with msix := [{ vec := 3, addr := 64, data := 5, ctl := 0 }] }
theorem test_hyp_coalesce_sends :
    bitAt ((unmasked.fn 0).entry 3).ctl 0 = false ∧ (match exec (.msixCoalesceTimeout 1) (st unmasked) with
    | .next t => t.dev.bus == [.msix 0 3]
    | _ => false) = true := by decide +kernel
theorem test_hyp_coalesce_none : ({ cq with desc := desc 4 0xFFFF 0 0x10000 0 } : Queue).vector = 0xFFFF := by decide
theorem test_hyp_unmask : let d := fn0 up fun x => { x with pba := [3] }
    d.serves 0 .msix = true ∧ 3 < vecCount 0 ∧ 3 ∈ (d.fn 0).pba ∧ (d.fn 0).bme = true ∧
    ((fn0 d fun x => { x with bme := false }).fn 0).bme = false := by decide +kernel
theorem test_hyp_fetch : dueSqFetch 2 [zeros 64] queued = true ∧ queued.fetchable sq = true ∧ queued.lwd.st = .active := by
  decide +kernel
theorem test_hyp_depot_whole :
    DepotWhole (depot 0 4) ∧ DepotWhole { depot 0 4 with free := [0, 2, 3], held := [(1, 9)] } := by
  unfold DepotWhole; decide
theorem test_hyp_reservation : let x : Depot := { depot 0 4 with res := [(7, 2)] }
    x.id < 0x50 ∧ x.rebuild = false ∧ x.free ≠ [] ∧ x.holds 7 < x.resOf 7 ∧ x.canAlloc 8 = true ∧ x.resOf 8 ≤ x.holds 8 := by
  decide
def stored (x : Depot) : Dev := { sealed with depots := [x] }
theorem test_hyp_bad_header : (stored (depot 0 4)).depot? 0 = some (depot 0 4) ∧ (depot 0 4).free ≠ [] ∧
    runsFrom (.depotAllocate 0 .none true) (stored (depot 0 4)) = true ∧
    runsFrom (.freeListRebuildDone 0) (stored { depot 0 4 with rebuild := true }) = true := by decide +kernel

/-! ### Witnesses: charters and jobs -/

def charter (d : Dev) (f : CharterSt → CharterSt) : Dev := { d with charter := f d.charter }

theorem test_hyp_charter : up.serves 0 .rest = true ∧ up.charter.busy = none ∧ up.charter.st = .empty ∧
    sealed.charter.st = .sealed ∧ sealed.idle = true ∧ busyPart.idle = false := by decide +kernel
theorem test_hyp_charter_loaded : let d := charter up fun c => { c with st := .loaded, cur := some cfg }
    d.serves 0 .rest = true ∧ d.charter.busy = none ∧ d.charter.st = .loaded ∧ d.charter.cur = some cfg := by decide +kernel
theorem test_hyp_charter_refused : (match loadCharter [] (stagedImage up.charter.staging) with
    | .error _ => true
    | .ok _ => false) = true := by decide +kernel
theorem test_charter_seals :
    (match exec (.charterSeal 4) (st (charter up fun c => { c with st := .loaded, cur := some cfg })) with
    | .next t => t.dev.charter.st == .sealed && (t.dev.part? 0).isSome && !t.dev.mem.open_
    | _ => false) = true := by decide +kernel
theorem test_hyp_charter_busy : let r : CharterRes := { op := 2, result := 0, section_ := 0, entry := 0 }
    (charter up fun c => { c with busy := some r }).charter.busy = some r := by decide

/-- A manifest image (R31, R32): one core, one output region, END at 256. Its digest was computed outside, by a SHA-384 library. -/
def image : List Byte :=
  le 4 0x4D464654 ++ le 2 2 ++ le 1 1 ++ le 1 1 ++ le 8 4000 ++ le 4 2000 ++ le 2 64 ++ le 2 0 ++ le 4 65536 ++ le 4 65536 ++
  le 4 0 ++ le 4 0 ++ le 2 0 ++ le 2 0 ++ le 2 0 ++ le 2 1 ++ le 4 0 ++ le 4 0 ++ le 4 272 ++ le 4 0 ++ le 4 256 ++ le 4 1 ++
  zeros 40 ++ be 48
    0x229d53e02a45be6a1c3fff997f0e6f23320c30ea92e4d57c2fd6647418d42c93ec85ad6abdf47311ad97a9c608f9167e ++
  zeros 96 ++ le 16 wEnd ++ le 8 65536 ++ le 6 4096 ++ le 2 1

def listed (img : List Byte) : Dev :=
  { sealed.ownerWrite 0 4096 img with parts := { part0 with list := [entry0], jobSeq := 1 } :: ((upTo 6).drop 1).map Part.reset }

theorem test_hyp_job_starts : let d := listed image
    d.part? 0 = some { part0 with list := [entry0], jobSeq := 1 } ∧ d.mayStart part0 = true ∧ d.firstReady 0 = none ∧
    (d.headMove { part0 with list := [entry0], jobSeq := 1 }).any (fun h => h.2.2.status == 0) = true := by decide +kernel
def refusedJob : Dev := { sealed with parts := { part0 with list := [entry0] } :: ((upTo 6).drop 1).map Part.reset }
theorem test_hyp_job_refused : refusedJob.mayStart part0 = true ∧ refusedJob.firstReady 0 = none ∧
    (refusedJob.headMove { part0 with list := [entry0] }).any (fun h => h.2.2.status != 0) = true ∧ entry0.src = .host 7 1 0 false 0 := by
  decide +kernel

/-- The device `d` with its one context and its core 0 changed. -/
def ctx (d : Dev) (f : Ctx → Ctx) : Dev := { d with ctxs := d.ctxs.map f }
def core0 (d : Dev) (f : CoreRun → CoreRun) : Dev := d.modCore 0 fun k => { k with run := f k.run }
def bare : Dev := runs [word [], wEnd] []

theorem test_hyp_ready_first : let d := ctx bare fun x => { x with st := .becReady, cores := [] }
    (d.firstReady 0).any (fun x => decide (x.mf.cores ≤ (d.freeCores part0).length)) = true ∧ d.part? 0 = some part0 := by decide +kernel
def ended : Dev := core0 bare fun r => { r with ended := some 30 }
theorem test_hyp_complete : ended.ctx? 0 = some (ctx0 [0] [(4096, 2)]) ∧ ended.flows (ctx0 [0] [(4096, 2)]) = true ∧
    lastEnd (ended.runs (ctx0 [0] [(4096, 2)])) = some 30 := by decide +kernel
theorem test_complete : (match exec (.jobComplete 0) (st ended) with
    | .next t => t.dev.ctxs == [] && t.dev.due.length == 1 && t.dev.due.all (fun r => r.queue == 1) && (t.dev.core 0).job == none
    | _ => false) = true := by decide +kernel
def atGate : Dev := core0 (runs [wGate] []) fun r => { r with gate := some (0, 60) }
/-- A wait for a waymark that nothing signals. -/
theorem test_hyp_watchdog : dueWatchdog 0 (runs [word [(0, 11), (24, 1), (40, 1)]] []) = true := by decide +kernel
def saver : Dev := { sealed with parts := { part0 with save := 4 * 2 ^ 48 } :: ((upTo 6).drop 1).map Part.reset }
def saving (l : LaneOp) (cores : List Nat) : Dev :=
  let x : Ctx := { ctx0 cores [(4096, 2)] with lane := some l, saveSlot := some 0 }
  { saver with ctxs := [x], mem := { saver.mem with laneBusy := some 0 }, ticks := 10 ^ 9
               cores := if cores = [] then saver.cores else modAt (fun k => { k with job := some 0 }) 0 saver.cores }
theorem test_hyp_save : (saving (.save .held) [0]).mainUp = true ∧
    (saving (.save .held) [0]).ctxs.all (fun x => (saving (.save .held) [0]).laneDone x && !x.paused && x.heldBy != some .busMaster) = true := by
  decide +kernel
theorem test_save : (match exec (.saveComplete 0) (st (saving (.save .held) [0])) with
    | .next t => (t.dev.ctx? 0).any (fun y => y.st == .held && y.cores == [] && y.saved.length == 1) && (t.dev.core 0).job == none
    | _ => false) = true := by decide +kernel
theorem test_hyp_restore : (saving (.restore [1]) []).clk.refPresent = true ∧ part0.held = false ∧
    runsFrom (.restoreComplete 0) (saving (.restore [1]) []) = true := by decide +kernel
def blocked : Dev :=
  { saver with ctxs := [{ ctx0 [0] [(4096, 1)] with st := .blocked }], ticks := 10 ^ 9
               cores := modAt (fun k => { k with job := some 0, run := { k.run with gate := some (0, 60) } }) 0 saver.cores }
theorem test_hyp_evict_draining : let d := lwd blocked fun l => { l with st := .draining }
    d.mainUp = true ∧ d.lwd.st = .draining ∧ (d.blocked 0 false).length = 1 ∧
    (d.freeSlot { part0 with save := 4 * 2 ^ 48 }).isSome = true ∧ d.freeSlot part0 = none := by decide +kernel
/-- A runnable becalmed context of two cores beside a blocked one of core 0. -/
def crowded : Dev :=
  { blocked with ctxs := blocked.ctxs ++
      [{ ctx0 [] [(4096, 1)] with entry := { entry0 with id := 1 }, st := .becReady, mf := manifest 2 [(4096, 1)], saveSlot := some 1 }] }
theorem test_hyp_evict : crowded.lwd.st ≠ .draining ∧ crowded.mayStart part0 = true ∧
    (crowded.eviction { part0 with save := 4 * 2 ^ 48 }).length = 1 ∧
    (crowded.freeSlot { part0 with save := 4 * 2 ^ 48 }).isSome = true ∧ runsFrom (.evict 0) crowded = true := by decide +kernel
theorem test_hyp_muster_start : let e : JobEntry := { entry0 with src := .host 7 1 0 true 5 }
    let p : Part := { part0 with mustered := [e] }
    let d : Dev := { listed image with dau := { Dau.reset with epoch := 5, startTick := some 10, startCk := some 640 }, ticks := 11, coreRun := 640
                                       parts := p :: ((upTo 6).drop 1).map Part.reset }
    d.mayStart p = true ∧ d.clk.level < 64 ∧ d.dau.startCk = some 640 ∧ 640 ≤ d.coreRun ∧ (d.musterMove p).any (fun m => m.2.status == 0) = true ∧
    (∀ q, q < 6 → q ≠ 0 → d.part? q = none) := by decide +kernel
theorem test_hyp_ctx_commands :
    bare.serves 0 .rest = true ∧ Busy bare 0 .ctx = false ∧ Busy bare 1 .ctx = false ∧ bare.part? (0 / 2 ^ 29) = some part0 ∧ part0.owner = 0 ∧
    bare.serves 1 .rest = true ∧ part0.owner ≠ 1 ∧ bare.ctx? 5 = none ∧ bare.waiting? 5 = none ∧ (bare.ctx? 0).isSome = true ∧
    bare.ctxs.all (fun x => x.st == .running && x.lane.isNone && (lastEnd (bare.runs x)).isNone) = true ∧
    bare.freeSlot part0 = none := by decide +kernel
theorem test_hyp_preempt : (saver.freeSlot { part0 with save := 4 * 2 ^ 48 }).isSome = true ∧
    runsFrom (.preempt 0 0 3) blocked = true ∧ runsFrom (.ctxQuery 0 0 3) blocked = true := by decide +kernel
theorem test_hyp_resume : let d := ctx bare fun x => { x with st := .held, heldBy := some .preempt, cores := [] }
    (d.ctx? 0).any (fun x => x.st == .held) = true ∧ runsFrom (.resume 0 0 3) d = true := by decide +kernel
theorem test_cancel : (match exec (.cancel 0 0 3) (st bare) with
    | .next t => t.dev.ctxs == [] && (t.dev.fn 0).ctxSts.result == 0
    | _ => false) = true := by decide +kernel
theorem test_hyp_partition_reset :
    bare.serves 0 .rest = true ∧ bare.part? 0 = some part0 ∧ part0.owner = 0 := by decide +kernel
theorem test_hyp_waymarks :
    bare.serves 0 .rest = true ∧ (bare.wmPart 9).any (·.owner == 1) = false ∧ bare.wmPrivate 1 = true ∧
    bare.wmPrivate 5 = false := by decide +kernel
theorem test_waymark_wraps : (match exec (.waymarkSignal 0 5 (2 ^ 32 - 1))
      (st { sealed with wmk := [{ ix := 5, count := 3, counter := false }] }) with
    | .next t => (t.dev.wmkAt 5).count == 2
    | _ => false) = true := by decide +kernel

/-! ### Witnesses: transfers, faults, gates, replays, lulls -/

def xfer (store landed : Bool) : Transfer :=
  { store := store, csp := 256, planned := 128, run := 128, addr := 65536, issue := 0, release := 902, bound := 2, due := 902
    late := 0, landed := landed, data := le 64 7 ++ le 64 9, behind := [], clear := true }

theorem test_hyp_ordered : Ordered CoreRun.start ∧ (runs [wLdt] []).ctxs.all (fun x => x.cores == [0]) = true := by
  unfold Ordered; decide +kernel
/-- The job waits on a transfer: its next word, at ck 2000, is still to come. -/
def waiting (q : Transfer) : Dev :=
  core0 (runs [word [], word [(0, 14), (8, 2000)]] []) fun r => { r with ip := 1, last := some 0, queue := [q], lastRelease := 902 }

theorem test_hyp_lands : dueLand 0 0 950 (waiting (xfer false false)) = true ∧
    ((waiting (xfer false false)).core 0).run.queue[0]? = some (xfer false false) := by decide +kernel
theorem test_hyp_lands_alone : (xfer false false).behind = [] ∧ Ordered ((waiting (xfer false false)).core 1).run ∧
    ((waiting (xfer false true)).core 0).run.queue = [xfer false true] ∧
    (waiting (xfer false true)).ctxs.all (fun x => x.cores == [0]) = true := by unfold Ordered; decide +kernel
theorem test_lands_late : (match exec (.transferDataLand 0 0 950) (st (waiting (xfer false false))) with
    | .next t => (t.dev.core 0).run.queue.map (·.release) == [950]
    | _ => false) = true := by decide +kernel
theorem test_hyp_release :
    dueRelease 0 0 (waiting (xfer false true)) = true ∧ dueRelease 0 0 (waiting (xfer true true)) = true := by
  decide +kernel
theorem test_load_releases : (match exec (.transferRelease 0 0) (st (waiting (xfer false true))) with
    | .next t => memBytes (t.dev.core 0).mem.csp (64 * 256 + 64) 2 == [9, 0]
    | _ => false) = true := by decide +kernel
theorem test_store_releases : (match exec (.transferRelease 0 0) (st (waiting (xfer true true))) with
    | .next t => t.dev.ownerRead 0 (65536 + 64) 2 == [9, 0]
    | _ => false) = true := by decide +kernel
theorem test_transfers_wait_their_turn : (match exec (.ldt 0) (st (runs [wLdt] [])) with
    | .next t => (t.dev.core 0).run.queue.map (fun q => (q.release, q.addr, q.run)) == [(902, 65536 + 64, 128)]
    | _ => false) = true := by decide +kernel
def next0 (d : Dev) : Option Next := (d.seat 0).map d.nextOf
theorem test_hyp_past_the_end : let d := core0 (runs [word []] []) fun r => { r with ip := 1, last := some 0 }
    dueTile .nop 0 d = true ∧ next0 d = some (.past 0) := by decide +kernel
theorem test_hyp_undefined : dueTile .nop 0 (runs [word [(0, 15)]] []) = true ∧
    next0 (runs [word [(0, 15)]] []) = some (.fault 0 false) := by decide +kernel
theorem test_hyp_region : let w := word [(0, 7), (24, 256), (52, 1024), (85, 2)]
    dueTile .ldt 0 (runs [w] []) = true ∧ next0 (runs [w] []) = some (.fault 0 true) := by decide +kernel
theorem test_undefined_faults : (match exec (.nop 0) (st (runs [word [(0, 15)]] [])) with
    | .next t => t.dev.ctxs == [] && t.dev.due.map (fun r => at_ r.bytes 5 1) == [0x13]
    | _ => false) = true := by decide +kernel
theorem test_hyp_uncorrectable : ({ corrected := 0, uncorrectable := true } : Ecc).uncorrectable = true ∧
    (runs [wMxm] []).ctxs.all (fun x => x.attempt < 3 && x.cores == [0]) = true := by decide +kernel
theorem test_gate_holds : (match exec (.gate 0) (st (runs [wGate] [])) with
    | .next t => (t.dev.core 0).run.gate == some (0, 0) && (t.dev.core 0).run.ip == 0 && t.dev.ctxs.map (·.st) == [.blocked]
    | _ => false) = true := by decide +kernel
def gateReady : Dev := { atGate with wmk := [{ ix := 4, count := 1, counter := false }] }
theorem test_hyp_gate_opens : dueGateOpen 0 gateReady = true ∧ gateReady.ctxs.all (fun x => x.cores == [0]) = true ∧
    (gateReady.core 0).job = some 0 := by decide +kernel
theorem test_gate_opens : (match exec (.gateOpen 0) (st gateReady) with
    | .next t => (t.dev.core 0).run.last == some 61 && (t.dev.core 0).run.slip == 10
    | _ => false) = true := by decide +kernel
/-- A check of row 3, column 5 failed on the first word of an MXM whose front was ck 50. -/
def residue : ResidueFacts :=
  { word := 50, rows := [{ row := 3, column := 5, error := 4, fails := 0 }], selfTestBad := [], uncorrectable := false }
def computing : Dev := core0 bare fun r => { r with
  ip := 1, last := some 90, words := [{ front := 50, plan := mxmPlan wMxm none (64, 64) (64, 64) (64, 64) }] }
theorem test_hyp_replay : dueReplay 0 residue computing = true ∧
    computing.ctxs.all (fun x => x.replayCk + 1040 ≤ x.mf.reserve && x.injectedAt 0 88 == []) = true := by decide +kernel
def spent (n : Nat) : Dev := ctx computing fun x => { x with replayCk := 1000, attempt := n }
theorem test_hyp_replay_reissues : dueReplay 0 residue (spent 0) = true ∧ dueReplay 0 residue (spent 3) = true ∧
    (spent 0).ctxs.all (fun x => x.mf.reserve < x.replayCk + 1040) = true := by decide +kernel
theorem test_replay : (match exec (.replayEvent 0 residue) (st computing) with
    | .next t => t.dev.ctxs.map (fun x => (x.replayCk, x.paused)) == [(1040, true)] && (t.dev.core 0).replays == 1
    | _ => false) = true := by decide +kernel
theorem test_hyp_replay_resumes : let d := ctx computing fun x => { x with paused := true }
    dueResume 0 d = true ∧ (d.ctx? 0).any (·.lane.isNone) = true := by decide +kernel

def retrain (f : Retrain → Retrain) : Dev := clocked (sealed.modPart 0 fun p => { p with retrain := f p.retrain })
theorem test_hyp_refresh : dueRefresh 0 sealed = true ∧ (sealed.retrainOf 0).lull = .none ∧ dueRefresh 7 sealed = true ∧
    dueRefresh 0 (sealed.modPart 0 fun p => { p with retrain := { p.retrain with lull := .retrain 9 } }) = true ∧
    dueRefresh 0 (sealed.modPart 0 fun p => { p with retrain := { p.retrain with lull := .forced 9 } }) = true := by decide +kernel
theorem test_hyp_refresh_end : ((retrain fun r => { r with lull := .refresh 5 }).retrainOf 0).lull = .refresh 5 ∧
    (retrain fun r => { r with lull := .refresh 5 }).mainUp = true := by decide +kernel
theorem test_hyp_retrain : dueRetrainDue 0 (retrain id) = true ∧ dueRetrainLull 0 (retrain id) = true ∧
    ((retrain fun r => { r with lull := .forced 5 }).retrainOf 0).lull = .forced 5 := by decide +kernel
theorem test_hyp_forced : dueForced 0 (clocked (waiting (xfer false false))) = true ∧
    (clocked (waiting (xfer false false))).part? 0 = some part0 := by decide +kernel
theorem test_forced_lull : (match exec (.forcedLull 0) (st (clocked (waiting (xfer false true)))) with
    | .next t => (t.dev.core 0).run.queue.map (fun q => (q.landed, q.late)) == [(false, 8)] && (t.dev.part? 0).map (·.forced) == some 1
    | _ => false) = true := by decide +kernel
theorem test_hyp_migration : dueMigration 0 true sealed = true ∧ sealed.mem.mcs.length = 8 ∧ sealed.mem.spares = [30] ∧
    dueMigration 0 true { sealed with mem := { sealed.mem with spares := [] } } = true := by decide +kernel
theorem test_hyp_copied : dueCopied { sealed with
    run := copyTicks, mem := { sealed.mem with migration := some { src := 0, dst := 30, startTick := 0, copied := false } } } = true := by
  decide +kernel
def copied : Dev := { sealed with mem := { sealed.mem with migration := some { src := 0, dst := 30, startTick := 0, copied := true } } }
theorem test_hyp_switch : (copied.pcs 0).any (fun pc => pc / 2 == 0) = true ∧ memWf copied.mem.hbm = true ∧
    (∀ l ∈ copied.mem.lists, ∀ pc ∈ l.2, pc / 2 ≠ 30) := by decide +kernel
theorem test_hyp_scrub : isLine 5 64 = true ∧ sealed.mainUp = true ∧ sealed.mem.mcs.length = 8 := by decide +kernel
theorem test_hyp_retry : dueRetry 0 64 .corrected .scrub sealed = true ∧
    dueRetry 0 64 (.retried 2 950) (.transfer 0 0) (waiting (xfer false false)) = true ∧
    dueRetry 0 64 .lost (.transfer 0 0) (waiting (xfer false false)) = true ∧
    ((waiting (xfer false false)).loadAt 0 0).map (·.2) = some (xfer false false) ∧
    dueRetry 0 64 .lost (.bar2 0 0 8) open3 = true := by decide +kernel
theorem test_hyp_muster : up.serves 0 .rest = true ∧ up.clk.refPresent = true ∧ up.dau.ignores up.ticks = false ∧
    ({ up.dau with lastPulse := some 0 } : Dau).ignores 519 = true ∧ bitAt up.dau.ctl 0 = false ∧
    dueFire { up with dau := { up.dau with ctl := 6 } } = true := by decide +kernel
theorem test_hyp_armed : let u : Dau := { Dau.reset with ctl := 1 + 5 * 2 ^ 32 }
    bitAt u.ctl 0 = true ∧ u.armTick + 52 ≤ 10 ^ 9 ∧ u.ignores (10 ^ 9) = false := by decide
theorem test_hyp_signed : let r : SignReq := { part := 0, seq := 0, addr := 2 ^ 20, fn := 0, body := zeros 8 }
    let p : Part := { part0 with wbRing := (2 ^ 20 + 4 * 2 ^ 48) }
    let d : Dev := { sealed with dau := { Dau.reset with signQueue := [r] }, parts := p :: ((upTo 6).drop 1).map Part.reset }
    dueSigned d = true ∧ d.part? r.part = some p ∧ (ringSlot p.wbRing 4 16 1024 p.granted r.seq).isSome = true := by decide +kernel

/-! ### Witnesses: video -/

/-- A route descriptor (R123): partition 0, FLAGS `flags`, CQ 1, one batch-1 manifest at 4096, an 8 x 8 tensor of one byte a sample. -/
def routeDesc (flags : Nat) : List Byte :=
  le 1 0 ++ le 1 flags ++ le 2 0xFFFF ++ le 4 1 ++ le 2 0 ++ zeros 22 ++ le 8 4096 ++ zeros 24 ++
  zeros 8 ++ le 2 8 ++ le 2 8 ++ zeros 6 ++ le 1 1 ++ zeros 13 ++ zeros 16 ++ le 2 64 ++ zeros 14

def route (r flags : Nat) : Route := { id := r, fn := 0, desc := routeDesc flags, bound := true }

/-- A stream entry (R65): AVC, 2 references, 8 bits, 16 x 16, BUDGET 2048, its slots' routes. -/
def streamEntry (slots : List Nat) : List Byte :=
  le 1 0 ++ le 1 2 ++ le 1 8 ++ le 1 0 ++ le 2 16 ++ le 2 16 ++ le 4 2048 ++ zeros 12 ++ slots.flatMap (le 2) ++ zeros 96

def one : List Nat := [2, 0xFFFF, 0xFFFF, 0xFFFF]

/-- Depots of every kind, a CQ, an EVIDENCE SQ, route 2, and stream 3's entry in the table. -/
def video : Dev :=
  let d : Dev := { sealed with
    depots := [depot 0 8, depot 0x10 8, depot 0x20 8, depot 0x30 8, { depot 0x40 64 with base := 2 ^ 22 }, depot 0x50 8]
    queues := [cq, { sq with desc := desc 3 0xFFFF 1 0x20000 0 }]
    video := { sealed.video with routes := [route 2 0] } }
  d.commonWrite 0 (128 * 3) (streamEntry one)

def vid (d : Dev) (f : Video → Video) : Dev := { d with video := f d.video }

theorem test_hyp_stream_open : video.sealed = true ∧ video.ownsStream 0 3 = true ∧ video.stream? 3 = none ∧
    video.streamEntry 0 3 + 128 ≤ (video.commonGrant 0).2 ∧ streamCfgOk (video.commonRead 0 (video.streamEntry 0 3) 128) = true ∧
    (let s := mkStream 0 3 (streamEntry one) 0
     (∀ q ∈ s.slots, video.ownsRoute 0 q.2 = true ∧ (video.route? q.2).any (fun r => !r.sequence && !r.redact) = true) ∧
     (smallestClass s.bufBytes video.depots).any (fun x => x.canReserve (s.maxRefs + 2)) = true) := by decide +kernel
theorem test_hyp_stream_refusals : up.sealed = false ∧ video.ownsStream 0 8 = false ∧ streamCfgOk (zeros 128) = false ∧
    video.ownsRoute 0 9 = false ∧ video.route? 3 = none ∧ (depot 0 8).canReserve 9 = false ∧
    smallestClass 100000 video.depots = none := by decide +kernel
def opened : Dev := match exec (.streamOpen 0 3 5) (st video) with | .next t => t.dev | _ => video
theorem test_stream_opens :
    (opened.stream? 3).any (fun s => s.slots == [(0, 2)]) = true ∧ (opened.fn 0).streamSts.result = 0 ∧
    (opened.fn 0).streamSts.tag = 5 := by decide +kernel
theorem test_hyp_stream_port : Busy video 0 .stream = false ∧ Busy video 0 .route = false ∧ Busy video 0 .clip = false ∧
    Busy (fn0 opened fun x => { x with streamSts := CmdSts.zero }) 0 .stream = false := by decide +kernel
theorem test_hyp_stream_commands : opened.serves 0 .rest = true ∧ (opened.stream? 3).any (fun s => !s.closing) = true ∧
    ((opened.modStream 3 fun s => { s with closing := true }).stream? 3).any (fun s => s.closing &&
      (opened.modStream 3 fun s => { s with closing := true }).streamSpent s) = true := by decide +kernel
theorem test_hyp_heavy_log : (opened.fn 0).heavy = [] ∧
    ((fn0 opened fun x => { x with heavy := [{ stream := 3, count := 1 }] }).fn 0).heavy = [{ stream := 3, count := 1 }] ∧
    (opened.fn 0).heavyRead = none ∧ ((fn0 opened fun x => { x with heavyRead := some .low }).fn 0).heavyRead = some .low := by
  decide +kernel

def facts : UnitFacts :=
  { parses := true, unsupported := false, nonRef := true, clean := true, hidden := false, showExisting := false, order := 0
    picType := 0, width := 16, height := 16, depth := 8, format := 1, baseline := true, level := 30, maxDec := none
    refLimit := 1, reorder := none, latency := none, refs := [], keepShort := [], keepLong := [], self := 0, refresh := 0
    units := 1, unitW := 4, unitH := 4 }

def pic (k : Nat) (phase : PicPhase) : Pic :=
  { serial := k, flags := 0, bytes := 100, addr := 4096, timestamp := 0, overrides := zeros 32, begun := true, cut := none
    fetchedVk := 0, facts := some facts, phase := phase, shown := true, number := none, buf := none, noDecode := false
    conditions := [], overBudget := false, byteOffset := 0, cuAddr := 0, decodeVk := 0, taint := none, subst := none
    coverage := 0, concealKind := 0, engine := 0, reference := false, heavy := false, width := 16, height := 16, depth := 8
    epoch := 0, order := 0, latency := 0, report := [], recordsDue := [], maskDue := false, maskFull := false, maskOverflow := false
    masks := [] }

/-- Stream 3 with one picture. -/
def showing (p : Pic) : Dev := opened.modStream 3 fun s => { s with pics := [p], nextSerial := 1 }

theorem test_hyp_chunk : dueChunk 3 0 [facts] (showing (pic 0 .fetching)) = true ∧
    (showing (pic 0 .fetching)).pic? 3 0 = some (pic 0 .fetching) := by decide +kernel
theorem test_hyp_decode_order : ((showing (pic 0 .fetching)).stream? 3).any (fun s =>
    s.pics.map (·.serial) == [0] && s.nextSerial == 1) = true := by decide +kernel
/-- A temporal unit of stream 3 as an AV1 stream: a hidden frame, then the one it shows (R61, R69). -/
def av1 (d : Dev) : Dev := d.modStream 3 fun s => { s with cfg := 2 :: s.cfg.drop 1 }
def hiddenFrame : UnitFacts := { facts with nonRef := false, baseline := false, hidden := true, refresh := 1, unitW := 6, unitH := 6 }
def shownFrame : UnitFacts := { hiddenFrame with hidden := false, refresh := 2, order := 1 }
theorem test_hyp_unit : dueChunk 3 0 [hiddenFrame, shownFrame] (av1 (showing (pic 0 .fetching))) = true ∧
    dueChunk 3 0 [shownFrame, shownFrame] (av1 (showing (pic 0 .fetching))) = false := by decide +kernel
theorem test_unit_of_two_frames :
    (match exec (.chunkFetched 3 0 [hiddenFrame, shownFrame]) (st (av1 (showing { pic 0 .fetching with flags := 3 }))) with
    | .next t => (t.dev.stream? 3).any fun s => s.pics.map (fun p => (p.serial, p.flags, p.shown)) == [(0, 1, false), (1, 2, true)]
    | _ => false) = true := by decide +kernel
theorem test_hyp_pic_ready : duePicReady 3 0 (showing (pic 0 .fetched)) = true ∧ (pic 0 .fetched).endOnly = false := by
  decide +kernel
theorem test_hyp_pic_lost : let p : Pic := { pic 0 .fetched with facts := none, cut := some 5 }
    duePicReady 3 0 (showing p) = true ∧ p.endOnly = false := by decide +kernel
theorem test_hyp_end_only : let p : Pic := { pic 0 .fetched with flags := 2, bytes := 0, facts := none }
    duePicReady 3 0 (showing p) = true ∧ p.endOnly = true := by decide +kernel
theorem test_hyp_skipped : let d := showing (pic 0 .fetched)
    let d : Dev := { d.modStream 3 fun s => { s with cfg := (streamEntry one).take 3 ++ le 1 1 ++ ((streamEntry one).drop 4).take 28 } with
      depots := d.depots.map fun x => if x.id = 0x10 then { x with h1 := true } else x }
    duePicReady 3 0 d = true ∧ (d.stream? 3).any (fun s => d.skips s (pic 0 .fetched)) = true := by decide +kernel
theorem test_hyp_decode_target :
    ((showing (pic 0 .ready)).stream? 3).any (fun s => (showing (pic 0 .ready)).canTarget s) = true ∧
    (pic 0 .ready).phase = .ready := by decide +kernel
theorem test_hyp_decode : dueDecodeStart 0 (showing (pic 0 .ready)) = true ∧
    earliest (showing (pic 0 .ready)).readySet = some (3, 0, 4096) ∧
    ((showing (pic 0 .ready)).stream? 3).any (fun s => dimsOk s 0 facts && !dimsOk s 0 { facts with width := 32 }) = true := by decide +kernel
theorem test_decode_takes_a_buffer : (match exec (.decodeStart 0) (st (showing (pic 0 .ready))) with
    | .next t => t.dev.video.vdec.head?.map (·.job) == some (some (3, 0)) && (t.dev.pic? 3 0).any (fun p => p.buf == some 0)
    | _ => false) = true := by decide +kernel
/-- The picture is on engine 0 since vk 0. -/
def decoding (p : Pic) : Dev :=
  let d := vid (showing { p with phase := .decoding 0 0, buf := some 0 }) fun v => { v with
    vdec := modAt (fun e => { e with job := some (3, 0) }) 0 v.vdec
    frames := [{ cls := 0, ix := 0, stream := 3, serial := 0, order := 0, refShort := false, refLong := false, outputWait := 0
                 lastOutput := false, readers := 0, cacheUntil := none, age := 0 }] }
  { clocked d with depots := d.depots.map fun x => if x.id = 0 then { x with free := [1, 2, 3, 4, 5, 6, 7], held := [(0, 3)] } else x }
theorem test_hyp_budget :
    dueBudget 0 (decoding (pic 0 .ready)) = true ∧ dueAbandon 3 0 7 0 1 true (decoding (pic 0 .ready)) = true ∧
    ((decoding (pic 0 .ready)).inDecode 0).isSome = true := by decide +kernel
/-- Frame 0 is held in slot 0, and the header of picture 1 shows it (R69). -/
def showsHeld : Dev := av1 ((decoding (pic 0 .ready)).modStream 3 fun s => { s with
  nextSerial := 2, refSlots := some 0 :: List.replicate 7 none
  pics := [{ pic 0 .decoded with buf := some 0 }, { pic 1 .fetched with facts := some { facts with showExisting := true, refs := [0] } }] })
theorem test_hyp_shows_held :
    let d := vid showsHeld fun v => { v with frames := v.frames.map fun f => { f with refShort := true } }
    duePicReady 3 1 d = true ∧ (d.stream? 3).any (fun s => (d.refFrame s 0).isSome) = true ∧
    (d.pic? 3 1).any (fun p => p.shown && !p.endOnly && !bitAt p.flags 0) = true := by decide +kernel
def decoded : DecodeFacts :=
  { vk := 500, corrupt := false, byteOffset := 0, cuAddr := 0, uncovered := [], concealed := []
    luma := List.replicate 256 7, chroma := List.replicate 128 9, header := [], motion := [] }
theorem test_hyp_decode_ends : dueDecodeComplete 0 decoded (decoding (pic 0 .ready)) = true ∧
    ((decoding (pic 0 .ready)).depot? (videoDepot 0)).isSome = true ∧
    dueDecodeComplete 0 decoded (decoding { pic 0 .ready with facts := some { facts with unsupported := true } }) = true := by
  decide +kernel
def copying : Dev := vid (clocked (showing { pic 0 .copying with buf := some 0 })) fun v => { v with copier := [(3, 0)] }
theorem test_hyp_beyond : ((decoding (pic 0 .ready)).stream? 3).any (fun s =>
    s.beyond { facts with format := 2 } && s.beyond { facts with unsupported := true } && !s.beyond facts && s.clean facts) = true ∧
    decoded.corrupt = false ∧ decoded.concealed = [] ∧ decoded.uncovered = [] := by decide +kernel
theorem test_hyp_copier : dueCopyDone copying = true ∧ (copying.pic? 3 0).any (·.shown) = true := by decide +kernel
def done (f : Pic → Pic) : Dev :=
  let d := decoding (f (pic 0 .ready))
  (vid d fun v => { v with vdec := modAt (fun e => { e with job := none }) 0 v.vdec, frames := v.frames.map fun x => { x with outputWait := 1 } }).modPic
    3 0 fun p => { p with phase := .decoded }
def flushed (d : Dev) : Dev := d.modStream 3 fun s => { s with flushTo := 1 }
theorem test_hyp_forward : (flushed (done id)).mainUp = true ∧
    ((flushed (done id)).stream? 3).any (fun s => ((flushed (done id)).nextForward s).any (fun p => p.delivers && p.buf.isSome)) = true ∧
    ((flushed (done fun p => { p with conditions := [0x20] })).stream? 3).any
      (fun s => ((flushed (done fun p => { p with conditions := [0x20] })).nextForward s).any (fun p => !p.delivers)) = true := by decide +kernel
theorem test_forward_makes_a_pass : (match exec (.pictureGoForward 3) (st (flushed (done id))) with
    | .next t => t.dev.video.passes.map (fun x => (x.route, x.slot, x.stream)) == [(2, 0, 3)] &&
        (t.dev.pic? 3 0).any (fun p => p.number == some 0)
    | _ => false) = true := by decide +kernel
def forward : Dev := match exec (.pictureGoForward 3) (st (flushed (done id))) with | .next t => t.dev | _ => video
theorem test_hyp_ttl :
    dueTtl 0 0 (vid (done id) fun v => { v with frames := v.frames.map fun x => { x with cacheUntil := some 5 } }) = true := by
  decide +kernel
theorem test_hyp_pass : duePassStart 0 forward = true ∧ forward.firstPass.any forward.passValid = true := by decide +kernel
theorem test_hyp_pass_invalid :
    let d := vid forward fun v => { v with routes := v.routes.map fun r => { r with desc := r.desc.take 72 ++ le 2 7 ++ r.desc.drop 74 } }
    duePassStart 0 d = true ∧ d.firstPass.any (fun x => !d.passValid x) = true := by decide +kernel
def passing : Dev := match exec (.pscPassStart 0) (st forward) with | .next t => { t.dev with run := 2 * 10 ^ 9 } | _ => video
theorem test_hyp_pass_commits : duePassCommit 0 passing = true ∧
    (passing.onUnit 0).any (fun x => x.inBuf.isSome && x.outBuf.isSome && (passing.part? (passing.passPart x)).isSome &&
      (passing.stream? x.stream).any (fun s => (passing.pic? x.stream x.serial).any fun p => (passing.picSrc s p).isSome)) = true := by
  decide +kernel

/-! ### Witnesses: clips, routes, crops, tracks, verdicts -/

/-- An encode-context entry (R101): HEVC 8 bits, CBR 3 Mbit/s at 30 pictures a second, evidence queue 2. -/
def encodeCfg : List Byte :=
  [0, 0, 10, 40, 30, 0, 0, 0] ++ le 4 3000000 ++ le 4 0 ++ le 4 400000 ++ le 4 200000 ++ le 2 30 ++ le 2 1 ++ le 2 30 ++ zeros 10 ++
  le 4 0 ++ le 4 2 ++ zeros 16

/-- `d` with route 2 a redaction route and the entry in its function's table. -/
def redacting (d : Dev) : Dev :=
  (vid d fun v => { v with routes := [route 2 2] }).commonWrite 0 0 encodeCfg

theorem test_hyp_clip : let d := redacting opened
    d.ownsRoute 0 2 = true ∧ (d.route? 2).any (·.redact) = true ∧
    (d.video.streams.find? (fun y => y.slots.any fun q => q.2 == 2)).isSome = true ∧ d.commonRead 0 ((d.fn 0).vencBase) 64 = encodeCfg ∧
    ctxFieldsOk encodeCfg = true ∧ ctxRatesOk encodeCfg 16 16 = true ∧ d.evPairOk 0 2 = true ∧
    (d.stream? 3).any (fun s => d.engineRoom 0 encodeCfg s && s.maxDepth ≤ codecDepth encodeCfg &&
      (d.depot? encodeDepot).any fun y => y.canReserve (reconBlocks encodeCfg s + ceilDiv (stagingBytes encodeCfg) 65536)) = true := by
  decide +kernel
theorem test_hyp_clip_refusals :
    video.ownsRoute 0 9 = false ∧ video.route? 3 = none ∧ (video.route? 2).any (fun r => !r.redact) = true ∧
    ctxFieldsOk (zeros 64) = false := by decide +kernel
def clipped : Dev := match exec (.clipStart 0 2 0 6) (st (redacting (flushed (done id)))) with | .next t => t.dev | _ => video
theorem test_clip_starts : (clipped.openClip 2).any (fun c => c.fullness == 200000 && c.n == 0 && c.engine == 0) = true ∧
    (clipped.fn 0).clipSts.result = 0 := by decide +kernel
theorem test_hyp_clip_stops : (clipped.openClip 2).any (fun c => (clipped.stream? c.stream).isSome) = true ∧
    (redacting opened).openClip 2 = none := by decide +kernel
/-- The clip of `clipped` with picture 0 of stream 3 ready, and then on engine 0. -/
def ready : Dev := vid clipped fun v => { v with clips := v.clips.map fun c => { c with queue := [(0, 5)] } }
theorem test_hyp_encode : dueEncodeStart 0 ready = true ∧
    (earliestReady (ready.video.clipsOn 0)).any (fun r => (ready.clip? r.1.id).isSome) = true := by decide +kernel
/-- Stream 3's picture on engine 0, as a repeat: it lies below 64 x 64. -/
def coding : Dev := vid (clocked clipped) fun v => { v with
  clips := v.clips.map fun c => { c with coding := some 0, n := 1, size := (64, 64) }
  venc := modAt (fun e => { e with job := v.clips.head?.map fun c => (c.id, 0) }) 0 v.venc }
theorem test_hyp_encode_ends : dueEncodeComplete 0 0 coding = true ∧ (coding.inCoding 0).isSome = true := by decide +kernel

/-- A repeat of one CTB takes at most the header's bits and one CTB's bound (R102, R105, R112), whatever the coder writes. -/
theorem repeat_is_small (c : Clip) (i : CodeIn) (hr : i.repeats = true) (hi : i.intra = false) (hw : i.w = 64) (hh : i.h = 64) :
    (codePicture c i).used ≤ 4104 := by
  have h1 : ctbCols 64 = 1 := by decide
  have h2 : ctbRows 64 = 1 := by decide
  simp only [codePicture, codeRows, codeRow, RcState.cheap, hw, hh, h1, h2, hi, hr, Bool.true_or, if_true]
  have := Nat.min_le_left 4096 (Config.headBits i)
  have := Nat.min_le_left 8 (Config.cheapBits i [])
  simp only [Bool.false_eq_true, if_false]
  omega

theorem test_hyp_fits_fullness : 4096 + 8 * (ctbCols 64 * ctbRows 64) ≤ 200000 ∧ (40 : Nat) ≤ 45 := by decide
theorem test_hyp_staging_room (c : Clip) (x : Stream) (p : Pic) (h : coding.inCoding 0 = some (c, x, p)) :
    let i := c.codeIn p [] []
    c.staged + (c.bytes i (codePicture c i)).length ≤ stagingBytes c.cfg := by
  have hf : (coding.inCoding 0).all (fun y => !y.2.2.codes && y.1.size == (64, 64) && y.1.staged == 0 &&
      stagingBytes y.1.cfg == 100000 && y.1.codec == 0 && decide (y.1.nextFull 0 ≤ y.1.buffer)) = true := by decide +kernel
  rw [h] at hf
  simp only [Option.all_some, Bool.and_eq_true, beq_iff_eq, decide_eq_true_eq, Bool.not_eq_true'] at hf
  obtain ⟨⟨⟨⟨⟨hp, hs⟩, h0⟩, h1⟩, _⟩, hn⟩ := hf
  have hm : c.mode p = { repeats := true, newSeq := false, intra := false, w := 64, h := 64 } := by
    simp [Clip.mode, hp, hs]
  have hu : (codePicture c (c.codeIn p [] [])).used ≤ 4104 :=
    repeat_is_small c _ (by simp [Clip.codeIn, hm]) (by simp [Clip.codeIn, hm]) (by simp [Clip.codeIn, hm]) (by simp [Clip.codeIn, hm])
  have hfill : c.fillerBytes (codePicture c (c.codeIn p [] [])).used = 0 := by
    have : (c.nextFull (codePicture c (c.codeIn p [] [])).used - c.buffer).toNat = 0 := by
      simp only [Clip.nextFull] at hn ⊢
      omega
    simp [Clip.fillerBytes, this]
  have hlen : ∀ (n : Nat) (bs : List Byte), (fit n bs).length = n := by
    intro n bs
    simp [fit, zeros]
    omega
  simp only [Clip.bytes, hfill, fillerUnit, hlen, h0, h1, if_true, List.append_nil, ceilDiv, Nat.reduceEqDiff, if_false]
  omega
theorem test_hyp_staging_full :
    let d := vid coding fun v => { v with clips := v.clips.map fun c => { c with staging := [(zeros 100001, [])] } }
    dueEncodeComplete 0 0 d = true ∧ (d.inCoding 0).any (fun c => decide (stagingBytes c.1.cfg < c.1.staged)) = true := by
  decide +kernel
def evidence : Dev := vid clipped fun v => { v with clips := v.clips.map fun c => { c with staging := [(zeros 138, zeros 128)] } }
def posted : List Byte := le 8 0x50000 ++ le 4 50000 ++ zeros 52
theorem test_hyp_evidence : dueEvidence 2 posted evidence = true ∧
    (evidence.wantsBuffer 2).any (fun c => (evidence.clip? c.id).isSome && c.fn == 0 && decide (ceilDiv c.buffer 8 ≤ 50000)) = true ∧
    posted.drop 0xC = zeros 52 := by decide +kernel

/-- A batch-1 manifest with one input and one output region; its digest was computed outside, as that of `image`. -/
def routeImage : List Byte :=
  image.take 0x2E ++ le 2 2 ++ (image.drop 0x30).take 64 ++ be 48
    0x670ab118f74792501a5d0d66301198f874bead251a61ac3dd4c81301504e5c211365b0e4aaf672c5a8f524cf44963891 ++
  zeros 96 ++ le 16 wEnd ++ le 8 0 ++ le 6 64 ++ le 2 0 ++ le 8 0 ++ le 6 4096 ++ le 2 1
def described (d : Dev) : Dev := d.commonWrite 0 (128 * 4) (routeDesc 0)
theorem test_hyp_bind : let d := described video
    d.sealed = true ∧ d.ownsRoute 0 4 = true ∧ d.routeEntry 0 4 + 128 ≤ (d.commonGrant 0).2 ∧
    d.commonRead 0 (d.routeEntry 0 4) 128 = routeDesc 0 ∧ routeFieldsOk (routeDesc 0) = true ∧
    d.bindFail 0 4 (routeDesc 0) = some (1, 3) := by decide +kernel
theorem test_hyp_bind_passes : let d := (described video).ownerWrite 0 4096 routeImage
    d.bindFail 0 4 (routeDesc 0) = none := by decide +kernel
theorem test_hyp_unbind : (video.route? 2).isSome = true ∧ video.video.streams = [] ∧ opened.video.streams.any
    (fun y => y.slots.any fun q => q.2 == 2) = true := by decide +kernel
theorem test_unbind : (match exec (.routeUnbind 0 2 1) (st video) with
    | .next t => (t.dev.route? 2).isNone && (t.dev.fn 0).routeSts.result == 0
    | _ => false) = true := by decide +kernel

def task : CropTask :=
  { seq := 4, fn := 0, route := 2, part := 0, unit := some 0, picture := true, stream := 3, serial := 0, srcDepot := 0, srcBuf := 0, w := 16
    h := 16, chans := 3, srcFmt := 0, outW := 8, outH := 8, s := 1, filter := 0, fill := 0
    params := ((routeDesc 0).drop 0x40).take 32, norm := [], outFmt := 0, boxes := [(0, 0, 0x41000000, 0x41000000)], boxMask := [true]
    chanMask := [true, true, true], dstBuf := none, stepId := 9, running := false, startTick := 0 }
def cropping (t : CropTask) : Dev := vid (clocked (done id)) fun v => { v with cropTasks := [t] }
theorem test_hyp_crop : dueCropStart 0 (cropping task) = true ∧ (cropping task).firstCrop 0 = some task ∧
    dueCropDone 0 (cropping { task with dstBuf := some 0, running := true }) = true ∧
    dueAllocate 0x10 (.crop 4) false (cropping { task with unit := none }) = true := by decide +kernel

/-- The track engine's turn: picture 0 of stream 3 went forward, and no job ran for it. -/
def tracked : Dev :=
  let d := vid forward fun v => { v with passes := [] }
  { d with trk := { d.trk with results := [
      { fn := 0, route := 2, slot := 0, stream := 3, serial := 0, codes := [0x26], job := none, outBuf := none, outAddr := 0
        outLen := 0, waybill := 0, hash := [], batch := 0, actualCk := 0, replayCk := 0, slipCk := 0, arith := 0, win := 0 }] } }
theorem test_hyp_tracker : dueTracker 3 0 tracked = true ∧ (tracked.trackerNext 3 0).isSome = true ∧
    (tracked.trk.sets.find? (fun t => t.stream == 3 && t.slot == 0)).isSome = true ∧
    (tracked.trackerNext 3 0).any (fun r => unobserved (recordCodes r.2.1 r.2.2 0)) = true := by decide +kernel
theorem test_record_of_a_picture : (match exec (.trackerPicture 3 0) (st tracked) with
    | .next t => t.dev.due.map (fun (r : DueRec) => (r.queue, at_ r.bytes 4 1, at_ r.bytes 5 1, at_ r.bytes 6 1, at_ r.bytes 7 1)) ==
        [(1, 1, 0x26, 1, 1), (1, 2, 0x26, 0, 1)]
    | _ => false) = true := by decide +kernel
theorem test_hyp_pass_allocates :
    let d := vid forward fun v => { v with passes := v.passes.map fun x => { x with inBuf := none, outBuf := none } }
    d.video.passes.any (fun x => dueAllocate 0x10 (.pass x.seq) false d) = true := by decide +kernel
theorem test_hyp_frame_line :
    dueRetry 2 64 .lost (.frame 0 0 0 3 0) (done id) = true ∧ ((done id).pic? 3 0).isSome = true := by
  decide +kernel

def zoned : Dev := { opened with charter := { opened.charter with
  cur := some { cfg with zones := [{ id := 6, stream := 3, slot := 0, verts := [(0, 0), (8, 0), (8, 8)], threshold := 0, classes := 1 }] } } }
theorem test_hyp_zone : (∃ y ∈ zoned.zones, y.id = 6 ∧ zoned.ownsStream 0 y.stream = true) ∧
    (∀ y ∈ zoned.zones, y.id = 6 → zoned.ownsStream 1 y.stream = false) ∧ zoned.serves 1 .rest = true := by decide +kernel
/-- A query for zone 6 (R307, R309) with its frame check sequence. -/
def query (op : Nat) : List Byte :=
  let b := zeros 12 ++ be 2 0x88B5 ++ [1, BitVec.ofNat 8 op] ++ be 2 1 ++ be 4 77 ++ be 2 6 ++ zeros 36
  b ++ fcs b
def port : Dev := { zoned with vpt := { zoned.vpt with linkUp := true, ctl := 1 } }
theorem test_hyp_query :
    port.pins.leewardRail = true ∧ port.vpt.ready ≤ port.ticks ∧ port.considered (query 1) = true ∧ queryZones (parseFrame (query 1)).pay = some [6] ∧
    queryZones (parseFrame (query 3)).pay = none ∧ port.considered (query 3) = true ∧ port.considered (zeros 64) = false ∧
    (port.vpt.waiting port.ticks).length < 16 := by decide +kernel
/-- While the main domain is held in reset the port answers without ENABLE (R488). -/
theorem test_hyp_query_in_reset : let d : Dev := { port with boot := .held, vpt := { Vpt.reset with linkUp := true } }
    d.pins.leewardRail = true ∧ d.vpt.ready ≤ d.ticks ∧ d.vpt.linkUp = true ∧ bitAt d.vpt.ctl 0 = false ∧ d.considered (query 1) = true ∧
    ({ port with vpt := Vpt.reset } : Dev).vpt.linkUp = false := by decide +kernel
theorem test_query_answered : (match exec (.verdictQuery (query 1)) (st port) with
    | .next t => t.dev.vpt.queries == 1 && t.dev.bus.length == port.bus.length + 1
    | _ => false) = true := by decide +kernel
theorem test_hyp_queries_full :
    16 ≤ (({ port.vpt with held := List.replicate 16 (10 ^ 10) } : Vpt).waiting port.ticks).length := by
  decide +kernel

/-! ### Witnesses: values -/

theorem test_hyp_products :
    ([(g32 0x3F800000, g32 0x40000000), (g32 0x40400000, g32 0x3F800000)].map fun p => fMulX p.1 p.2).Perm
    ([(g32 0x40400000, g32 0x3F800000), (g32 0x3F800000, g32 0x40000000)].map fun p => fMulX p.1 p.2) := by decide +kernel
theorem test_hyp_pairs : [(1, 2), (3, 4)].Perm [(3, 4), (1, 2)] := by decide
theorem test_hyp_plan : let p := mxmPlan wMxm none (2, 2) (4, 4) (64, 64)
    p.lines.length = p.nk ∧ memWf ([] : Mem) = true ∧ fmtIsInt 0 = true := by decide +kernel
theorem test_integer_cell :
    acmWord (cellWrite 0 0 5 3 false [(.fin true 3 0, .fin false 7 0)] CoreMem.zero) 5 3 = 2 ^ 32 - 21 := by
  decide +kernel
theorem test_hyp_window : (winOf (winDesc 0 0) [] []).any (fun w =>
    1 ≤ w.sh && 1 ≤ w.sw && 1 ≤ w.kh && 1 ≤ w.kw && w.npos.1 ≤ w.npos.2 && w.pos (w.outSize 2 2) 2 1 == some (0, 1)) = true := by
  decide +kernel
theorem test_condition_mask :
    condMask [0x21, 0x01, 0x12] = 2 ^ 17 + 2 ^ 1 + 2 ^ 10 ∧ statusOf [0x21, 0x01, 0x12] = 0x21 := by decide
theorem test_setlen : (match exec (.setlen 0) (st (runs [wSetlen] [])) with
    | .next t => (t.dev.core 0).run.vl.at 1 == (7, 10) && (t.dev.core 0).run.vl.at 0 == (1, 1)
    | _ => false) = true := by decide +kernel
theorem test_cfa_reads_before_it_adds : (match exec (.cfaFetchAdd 0)
      (st { runs [wCfa 0 3] [] with wmk := [{ ix := 1, count := 2 ^ 32 - 1, counter := true }] }) with
    | .next t => ((t.dev.core 0).run.lr 2).at 1 == (2 ^ 32 - 1, 1) && (t.dev.wmkAt 1).count == 2
    | _ => false) = true := by decide +kernel

/-! ### Witnesses: what the sections above leave -/

def stepping : Dev := { tracked with trk := { tracked.trk with steps := [
  { id := 9, fn := 0, route := 2, slot := 0, stream := 3, serial := 0, part := 0, tracks := [1], task := none, jobs := [], issued := 0
    cropBuf := some 0, cropDig := (0, 0), failed := false }] } }
theorem test_hyp_gather : dueAllocate 0x10 (.gather 9) false stepping = true ∧
    (stepping.trk.steps.find? (·.id == 9)).any (fun x => x.issued == 0) = true := by decide +kernel
theorem test_hyp_vector_frame : memWf ([] : Mem) = true ∧ (1 : Nat) ≤ 2 ∧
    (vecRuns 5 0x02 0 1 [0, 0, 0, 0] [14, 14, 0, 14] 0 0).ctxs.all (fun x => x.cores == [0]) = true := by decide +kernel
theorem test_hyp_evidence_refused :
    dueEvidence 2 (posted.take 63 ++ [1]) evidence = true ∧ (∃ b ∈ (posted.take 63 ++ [1]).drop 0xC, b ≠ 0) ∧
    dueEvidence 2 (le 8 0x50000 ++ zeros 56) evidence = true ∧
    (evidence.wantsBuffer 2).any (fun c => c.ended.isNone && decide (0 < ceilDiv c.buffer 8)) = true := by decide +kernel
theorem test_hyp_fetch_fails : queued.mainUp = true ∧ queued.sealed = true ∧ queued.queue? 2 = some sq ∧
    runsFrom (.fetchCompletionError (.entries 2)) queued = true := by decide +kernel
theorem test_hyp_half : (0x1111111122222222 : Nat) < 2 ^ 64 ∧ (0xAAAAAAAA : Nat) < 2 ^ 64 := by decide
theorem test_hyp_condition_codes : ∀ c ∈ [0x00, 0x07, 0x13, 0x27, 0x33, 0x43], c < 0x44 := by decide

end Sys2Proof.Tests
end

section
/-! SUPPORT. One root-PLL cycle on an empty queue (log 3): the machine's clocks by R8, R464 to R466 and R474. -/

namespace Sys2Proof.Machine

open Sys2Proof

/-- The leeward oscillator keeps within 1 % of 52 MHz, in hundred-millionths of an lk (R8, R465). -/
theorem leewardStep_bounds (n : Nat) : 990000 ≤ leewardStep n ∧ leewardStep n ≤ 1010000 := by
  unfold leewardStep
  omega

/-- Milliseconds, lk and phase are one count to the base of their units, and it advances by `n`. -/
theorem Lwd.advance_total (l : Lwd) (n : Nat) :
    (((l.advance n).ms * 52000 + (l.advance n).lk) * lkUnits + (l.advance n).phase) % (2 ^ 64 * 52000 * lkUnits) =
      ((l.ms * 52000 + l.lk) * lkUnits + l.phase + n) % (2 ^ 64 * 52000 * lkUnits) := by
  simp only [Lwd.advance, lkUnits]
  omega

/-- The cycle with its clocks' conditions as propositions. -/
theorem tick_eq (d : Dev) :
    let up := d.boot ≠ .held ∧ (d.lwd.st = .active ∨ d.lwd.st = .draining)
    tick d = { d with
      ticks := d.ticks + 1, fresh := []
      run := if up ∧ (d.clk.refPresent = true ∨ d.videoBusy = true) then d.run + 1 else d.run
      coreRun := if up ∧ d.clk.refPresent = true then d.coreRun + (64 - d.clk.level) else d.coreRun
      lwd := if d.pins.leewardRail then d.lwd.advance (leewardStep d.ticks) else d.lwd } := by
  simp [tick, Dev.clocked]

theorem step_idle (d : Dev) : step { pending := [], dev := d } = .next { pending := [], dev := tick d } := rfl

/-- Settles O2: an idle step is `tick`, whose clocks `tick_eq` spells out; the oscillator's bounds and the count's
arithmetic hold for every count. -/
theorem idleStepPassesOneRootCycle : Obligations.IdleStepPassesOneRootCycle :=
  ⟨fun d => (step_idle d).trans (by rw [tick_eq]), leewardStep_bounds, fun l n _ _ => l.advance_total n⟩

end Sys2Proof.Machine
end

section
/-! SUPPORT. Waymarks under update, the seat of an issuing core, and that a schedule's progress keeps what a core reads its next
word by (R34, R40, R245, R268). -/

namespace Sys2Proof.Machine

open Sys2Proof

/-! ### Waymarks -/

/-- An entry of another key is found as before where a key's entries have gone. -/
theorem find_filter_ne {α : Type} (key : α → Nat) {k v : Nat} (l : List α) (hv : v ≠ k) :
    (l.filter (key · != k)).find? (key · == v) = l.find? (key · == v) := by
  rw [List.find?_filter]
  congr 1
  funext x
  by_cases hx : key x = v <;> simp [hx, hv]

theorem Dev.wmkAt_ix (d : Dev) (n : Nat) : (d.wmkAt n).ix = n := by
  unfold Dev.wmkAt
  cases h : d.wmk.find? (·.ix == n) with
  | none => rfl
  | some m => simpa using List.find?_some h

theorem Dev.wmkAt_putWmk_same (d : Dev) (m : Waymark) : (d.putWmk m).wmkAt m.ix = m := by
  have hrest : (d.wmk.filter fun x => x.ix != m.ix).find? (·.ix == m.ix) = none := by simp
  unfold Dev.wmkAt Dev.putWmk
  by_cases hz : (m.count = 0 && !m.counter) = true
  · simp only [if_pos hz, hrest, Option.getD_none]
    simp only [Bool.and_eq_true, decide_eq_true_eq, Bool.not_eq_true'] at hz
    rw [← hz.1, ← hz.2]
  · simp [hz, List.find?_append, hrest]

theorem Dev.wmkAt_putWmk_ne (d : Dev) (m : Waymark) {v : Nat} (hv : v ≠ m.ix) :
    (d.putWmk m).wmkAt v = d.wmkAt v := by
  have hrest : (d.wmk.filter fun x => x.ix != m.ix).find? (·.ix == v) = d.wmk.find? (·.ix == v) :=
    find_filter_ne Waymark.ix _ hv
  have hm : (m.ix == v) = false := by simpa using Ne.symm hv
  unfold Dev.wmkAt Dev.putWmk
  by_cases hz : (m.count = 0 && !m.counter) = true
  · simp [hz, hrest]
  · simp [hz, List.find?_append, hrest, hm]

/-- A count satisfies a wait where it is the value or up to half the range past it (R14, R268). -/
theorem wmSat_iff {count value : Nat} (hc : count < 2 ^ 32) (hv : value < 2 ^ 32) :
    wmSat count value = true ↔ (count + 2 ^ 32 - value) % 2 ^ 32 < 2 ^ 31 := by
  simp only [wmSat, seqNewer, Bool.or_eq_true, Bool.and_eq_true, beq_iff_eq, decide_eq_true_eq]
  omega

/-! ### A core's seat -/

theorem Dev.seat_eq_some {d : Dev} {c : Nat} {s : Seat} : d.seat c = some s ↔
    d.ctxOf c = some s.x ∧ d.part? s.x.entry.part = some s.p ∧ s.slot = (d.core c).slot ∧ s.k = d.core c := by
  obtain ⟨x, p, slot, k⟩ := s
  unfold Dev.seat
  cases hx : d.ctxOf c with
  | none => simp
  | some y =>
    cases hp : d.part? y.entry.part with
    | none =>
      simp only [hp, reduceCtorEq, Option.some.injEq, false_iff]
      rintro ⟨rfl, h, -⟩
      simp [hp] at h
    | some q =>
      simp only [hp, Option.some.injEq, Seat.mk.injEq]
      constructor
      · rintro ⟨rfl, rfl, rfl, rfl⟩
        exact ⟨rfl, hp, rfl, rfl⟩
      · rintro ⟨rfl, h, rfl, rfl⟩
        exact ⟨rfl, Option.some.inj (hp.symm.trans h), rfl, rfl⟩

/-- The context that holds a core is that of the job the core names. -/
theorem Dev.ctxOf_eq_some {d : Dev} {c : Nat} {x : Ctx} (h : d.ctxOf c = some x) :
    (d.core c).job = some x.entry.id ∧ d.ctx? x.entry.id = some x := by
  unfold Dev.ctxOf at h
  cases hj : (d.core c).job with
  | none => simp [hj] at h
  | some j =>
    have hx : d.ctx? j = some x := by simpa [hj] using h
    have hid : x.entry.id = j := by simpa using List.find?_some hx
    subst hid
    exact ⟨rfl, hx⟩

/-- A core that holds a job is one of the device's. -/
theorem Dev.core_lt_of_job {d : Dev} {c j : Nat} (h : (d.core c).job = some j) : c < d.cores.length := by
  rcases Nat.lt_or_ge c d.cores.length with hc | hc
  · exact hc
  · simp [Dev.core, List.getElem?_eq_none hc, Core.reset] at h

/-! ### What a core reads its next word by -/

/-- The devices agree on what finds and reads a core's next word: jobs, slots and places of the cores, and manifests
and grants of the jobs. -/
structure Dev.SameProgram (d e : Dev) : Prop where
  core : ∀ c, (e.core c).job = (d.core c).job ∧ (e.core c).slot = (d.core c).slot ∧
    (e.core c).run.ip = (d.core c).run.ip
  part : ∀ p, (e.part? p).map (fun q => (q.id, q.granted)) = (d.part? p).map fun q => (q.id, q.granted)
  ctx : ∀ j, (e.ctx? j).map (fun x => (x.entry, x.mf)) = (d.ctx? j).map fun x => (x.entry, x.mf)

theorem Dev.SameProgram.refl (d : Dev) : d.SameProgram d := ⟨fun _ => ⟨rfl, rfl, rfl⟩, fun _ => rfl, fun _ => rfl⟩

theorem Dev.SameProgram.trans {d e f : Dev} (h : d.SameProgram e) (h' : e.SameProgram f) : d.SameProgram f where
  core c := by
    obtain ⟨h1, h2, h3⟩ := h.core c
    obtain ⟨h4, h5, h6⟩ := h'.core c
    exact ⟨h4.trans h1, h5.trans h2, h6.trans h3⟩
  part p := (h'.part p).trans (h.part p)
  ctx j := (h'.ctx j).trans (h.ctx j)

/-- A change of what none of the lists holds changes no program. -/
theorem Dev.SameProgram.of_lists {d e : Dev} (hc : e.cores = d.cores) (hp : e.parts = d.parts) (hx : e.ctxs = d.ctxs) :
    d.SameProgram e := by
  refine ⟨fun c => ?_, fun p => ?_, fun j => ?_⟩ <;> simp [Dev.core, Dev.part?, Dev.ctx?, hc, hp, hx]

theorem Dev.core_modCore (d : Dev) (c v : Nat) (g : Core → Core) :
    (d.modCore c g).core v = if v = c ∧ c < d.cores.length then g (d.core v) else d.core v := by
  by_cases hv : v = c
  · subst hv
    by_cases hl : v < d.cores.length
    · simp [hl, Dev.core_modCore_same d v g hl]
    · simp [Dev.core, modAt_same, hl]
  · simp [hv, Dev.core_modCore_ne d g (Ne.symm hv)]

theorem Dev.sameProgram_modCore (d : Dev) (c : Nat) (g : Core → Core)
    (hg : ∀ k, (g k).job = k.job ∧ (g k).slot = k.slot ∧ (g k).run.ip = k.run.ip) : d.SameProgram (d.modCore c g) where
  core v := by
    rw [Dev.core_modCore]
    split
    · exact hg _
    · exact ⟨rfl, rfl, rfl⟩
  part _ := rfl
  ctx _ := rfl

theorem Dev.sameProgram_modPart (d : Dev) (p : Nat) (g : Part → Part)
    (hg : ∀ q, (g q).id = q.id ∧ (g q).defined = q.defined ∧ (g q).granted = q.granted) :
    d.SameProgram (d.modPart p g) where
  core _ := ⟨rfl, rfl, rfl⟩
  part v := by
    have h := find_modIf (fun x : Part => x.defined && x.id == v) (·.id == p) g
      (fun q => by simp [(hg q).1, (hg q).2.1]) d.parts
    simp only [Dev.part?, Dev.modPart_parts, h, Option.map_map]
    congr 1
    funext q
    by_cases hq : q.id = p <;> simp [hq, hg]
  ctx _ := rfl

/-- A change of selected contexts that leaves entry and manifest. -/
theorem Dev.sameProgram_modIf_ctxs (d : Dev) (sel : Ctx → Bool) (g : Ctx → Ctx)
    (hg : ∀ x, (g x).entry = x.entry ∧ (g x).mf = x.mf) : d.SameProgram { d with ctxs := modIf sel g d.ctxs } where
  core _ := ⟨rfl, rfl, rfl⟩
  part _ := rfl
  ctx j := by
    have h := find_modIf (fun x : Ctx => x.entry.id == j) sel g (fun x => by simp [(hg x).1]) d.ctxs
    simp only [Dev.ctx?, h, Option.map_map]
    congr 1
    funext x
    cases hx : sel x <;> simp [hx, hg]

theorem Dev.sameProgram_wakeBlocked (d : Dev) (p : Nat) : d.SameProgram (d.wakeBlocked p) := by
  unfold Dev.wakeBlocked
  split
  · exact .refl d
  · rename_i q _
    exact d.sameProgram_modIf_ctxs (fun x => x.entry.part == p && x.st == .becBlocked && d.gateSat q x)
      (fun x => { x with st := .becReady, readySeq := d.nextReady }) fun _ => ⟨rfl, rfl⟩

theorem Dev.SameProgram.foldl {α : Type} {f : Dev → α → Dev} (hf : ∀ (d : Dev) (a : α), d.SameProgram (f d a))
    (l : List α) (d : Dev) : d.SameProgram (l.foldl f d) :=
  List.foldlRecOn l f (.refl d) fun e he a _ => he.trans (hf e a)

theorem Dev.sameProgram_foldAdds (d : Dev) (j ck : Nat) : d.SameProgram (d.foldAdds j ck) := by
  unfold Dev.foldAdds
  split
  · exact .refl d
  · rename_i x _
    have hw := Dev.SameProgram.foldl (f := fun (d : Dev) (a : Nat × Nat × Nat) =>
        d.putWmk { d.wmkAt a.1 with count := ((d.wmkAt a.1).count + a.2.1) % 2 ^ 32 })
      (fun d a => .of_lists rfl rfl rfl) (x.adds.filter fun a => a.2.2 ≤ ck) d
    have hx := hw.trans (Dev.sameProgram_modIf_ctxs _ (·.entry.id == j)
      (fun x => { x with adds := x.adds.filter fun a => ck < a.2.2 }) fun _ => ⟨rfl, rfl⟩)
    dsimp only
    split
    · exact hx
    · exact hx.trans (Dev.sameProgram_wakeBlocked _ _)

theorem Core.releaseOne_program (k : Core) :
    k.releaseOne.job = k.job ∧ k.releaseOne.slot = k.slot ∧ k.releaseOne.run.ip = k.run.ip := by
  unfold Core.releaseOne Core.land
  split
  · exact ⟨rfl, rfl, rfl⟩
  · dsimp only
    split <;> exact ⟨rfl, rfl, rfl⟩

theorem Dev.sameProgram_release (d : Dev) (x : Ctx) (c : Nat) : d.SameProgram (d.release x c) := by
  unfold Dev.release
  split
  · exact .refl d
  · rename_i q _ _
    refine Dev.SameProgram.trans ?_ (Dev.sameProgram_modCore _ c _ Core.releaseOne_program)
    split
    · have hw : d.SameProgram (d.ownerWrite x.entry.part q.addr q.data) := .of_lists rfl rfl rfl
      exact hw.trans (Dev.sameProgram_modPart _ _ _ fun _ => ⟨rfl, rfl, rfl⟩)
    · exact .refl d

theorem Dev.sameProgram_releases (x : Ctx) (t : Nat) : ∀ (n : Nat) (d : Dev), d.SameProgram (Dev.releases x t n d)
  | 0, d => .refl d
  | n + 1, d => by
    unfold Dev.releases
    split
    · exact (d.sameProgram_release x _).trans (Dev.sameProgram_releases x t n _)
    · exact .refl d

/-- The schedule's progress moves no core to another word (R34, R40, R268). -/
theorem Dev.sameProgram_advance (d : Dev) (j t : Nat) : d.SameProgram (d.advance j t) := by
  unfold Dev.advance
  split
  · exact .refl d
  · rename_i x _
    exact ((Dev.sameProgram_releases x t _ d).trans (Dev.sameProgram_foldAdds _ j t)).trans
      (Dev.sameProgram_modIf_ctxs _ _ _ fun _ => ⟨rfl, rfl⟩)

/-- A seat of the same core in devices of the same program reads the same places. -/
theorem Dev.SameProgram.seat {d e : Dev} (h : d.SameProgram e) {c : Nat} {s s' : Seat} (hs : d.seat c = some s)
    (hs' : e.seat c = some s') : s'.x.entry = s.x.entry ∧ s'.x.mf = s.x.mf ∧ s'.p.id = s.p.id ∧
      s'.p.granted = s.p.granted ∧ s'.slot = s.slot ∧ s'.k.run.ip = s.k.run.ip := by
  obtain ⟨hx, hp, hslot, hk⟩ := Dev.seat_eq_some.mp hs
  obtain ⟨hx', hp', hslot', hk'⟩ := Dev.seat_eq_some.mp hs'
  obtain ⟨hj, hc⟩ := Dev.ctxOf_eq_some hx
  obtain ⟨hj', hc'⟩ := Dev.ctxOf_eq_some hx'
  obtain ⟨hjob, hsl, hip⟩ := h.core c
  have hid : s'.x.entry.id = s.x.entry.id := by
    rw [hjob, hj] at hj'
    exact (Option.some.inj hj').symm
  have hctx := h.ctx s.x.entry.id
  rw [hc, ← hid, hc'] at hctx
  have hentry : s'.x.entry = s.x.entry := congrArg Prod.fst (Option.some.inj hctx)
  have hpart := h.part s.x.entry.part
  rw [hp, ← hentry, hp'] at hpart
  exact ⟨hentry, congrArg Prod.snd (Option.some.inj hctx), congrArg Prod.fst (Option.some.inj hpart),
    congrArg Prod.snd (Option.some.inj hpart), by rw [hslot, hslot', hsl], by rw [hk, hk', hip]⟩

/-- A word is read by the partition's number and grant, the manifest and the place. -/
theorem Dev.tileAt_congr (d : Dev) {p p' : Part} {x x' : Ctx} (slot ip : Nat) (hid : p'.id = p.id)
    (hg : p'.granted = p.granted) (hmf : x'.mf = x.mf) : d.tileAt p' x' slot ip = d.tileAt p x slot ip := by
  simp [Dev.tileAt, Dev.partRead, hid, hg, hmf]

end Sys2Proof.Machine
end

section
/-! SUPPORT. The issue of a tile instruction as its effect on a booked issue (R246), and the waymark rows (R268 to R270). -/

namespace Sys2Proof.Machine

open Sys2Proof

/-! ### Reads of HBM depend on memory and grants alone -/

theorem Dev.ownerRead_congr {d e : Dev} (h : e.mem = d.mem) (o : Nat) :
    ∀ n a, e.ownerRead o a n = d.ownerRead o a n
  | 0, _ => rfl
  | n + 1, a => by
    have hp : e.pcs o = d.pcs o := by simp only [Dev.pcs, h]
    simp only [Dev.ownerRead, Dev.spaceLen, hp, h, Dev.ownerRead_congr h o n (a + 1)]
    rfl

theorem Dev.tileAt_of_mem {d e : Dev} (h : e.mem = d.mem) (p : Part) (x : Ctx) (slot ip : Nat) :
    e.tileAt p x slot ip = d.tileAt p x slot ip := by
  simp only [Dev.tileAt, Dev.partRead, Dev.ownerRead_congr h]

/-! ### The issue of an instruction -/

/-- A seat whose core has counted `n` corrected errors more (R184). -/
def Seat.counted (s : Seat) (n : Nat) : Seat := { s with k := { s.k with corrected := satAdd 64 s.k.corrected n } }

/-- The device at an issue: its schedule has reached the ck, and the core has counted its corrected errors. -/
def Dev.counted (d : Dev) (c n : Nat) : Dev := d.modCore c fun k => { k with corrected := satAdd 64 k.corrected n }

theorem Dev.seat_counted {d : Dev} {c : Nat} {s : Seat} (n : Nat) (h : d.seat c = some s) :
    (d.counted c n).seat c = some (s.counted n) := by
  obtain ⟨hx, hp, hslot, hk⟩ := Dev.seat_eq_some.mp h
  have hc := Dev.core_modCore_same d c (fun k => { k with corrected := satAdd 64 k.corrected n })
    (Dev.core_lt_of_job (Dev.ctxOf_eq_some hx).1)
  refine Dev.seat_eq_some.mpr ⟨?_, hp, ?_, ?_⟩
  · simp only [Dev.ctxOf, Dev.counted, hc]
    exact hx
  · simp only [Dev.counted, hc]
    exact hslot
  · simp only [Dev.counted, hc, Seat.counted, hk]

end Sys2Proof.Machine

namespace Sys2Proof
open Machine

/-- What a core's step does where an instruction issues without a read error: the effect runs on the booked issue, with the
seat as it stands in that ck (R246). -/
theorem Issuing.tile_eq {d : Dev} {row : TileOp} {c : Nat} {s : Seat} {w t plan : Nat} (h : Issuing d row c s w t plan)
    (ecc : Ecc) (hecc : ecc.uncorrectable = false) (eff : Dev → Seat → Nat → Nat → Dev) :
    ∃ start cause vxe, d.tile row c ecc eff =
      eff (((Reached d c t).counted c ecc.corrected).book (s.counted ecc.corrected) c t plan start cause vxe row.cls
        (if row = .prefix_ then some (bits w 24 20, bits w 44 20) else none)) (s.counted ecc.corrected) w t := by
  obtain ⟨s0, cause, vxe, hs0, hnext⟩ := h.next
  refine ⟨s0.k.run.stallStart t plan cause, cause, vxe, ?_⟩
  have hj := (Dev.ctxOf_eq_some (Dev.seat_eq_some.mp hs0).1).1
  have hr : d.advance s0.x.entry.id t = Reached d c t := by simp [Reached, hj]
  obtain ⟨-, hmf, hid, hg, hslot, hip⟩ := (d.sameProgram_advance _ t).seat hs0 (hr ▸ h.seat)
  have hseat := Dev.seat_counted ecc.corrected h.seat
  have hword : ((Reached d c t).counted c ecc.corrected).tileAt s0.p s0.x s0.slot s0.k.run.ip = some w := by
    rw [← h.word, hslot, hip, Dev.tileAt_congr _ _ _ hid hg hmf]
    exact Dev.tileAt_of_mem (Dev.modCore_mem _ _ _) _ _ _ _
  unfold Dev.counted at hseat hword ⊢
  simp only [Dev.tile, hs0, hnext, hr, hecc, hseat, hword, Bool.false_eq_true, if_false]

/-- A row that issues completes with its effect on the booked issue. -/
theorem Issuing.completes {st : State} {row : TileOp} {c : Nat} {s : Seat} {w t plan : Nat}
    (h : Issuing st.dev row c s w t plan) (name : String) (ecc : Ecc) (hecc : ecc.uncorrectable = false)
    (eff : Dev → Seat → Nat → Nat → Dev) :
    ∃ start cause vxe, tileRow name row c ecc eff st = .next (st.withDev
      (eff (((Reached st.dev c t).counted c ecc.corrected).book (s.counted ecc.corrected) c t plan start cause vxe row.cls
        (if row = .prefix_ then some (bits w 24 20, bits w 44 20) else none)) (s.counted ecc.corrected) w t)) := by
  obtain ⟨start, cause, vxe, heq⟩ := h.tile_eq ecc hecc eff
  exact ⟨start, cause, vxe, by rw [tileRow, whenDue_due h.due, heq]⟩

/-- The job of an issuing core is the device's context under its number. -/
theorem Issuing.ctx {d : Dev} {row : TileOp} {c : Nat} {s : Seat} {w t plan : Nat} (h : Issuing d row c s w t plan) :
    (Reached d c t).ctx? s.x.entry.id = some s.x ∧ c < (Reached d c t).cores.length ∧ s.k = (Reached d c t).core c := by
  obtain ⟨hx, -, -, hk⟩ := Dev.seat_eq_some.mp h.seat
  obtain ⟨hj, hc⟩ := Dev.ctxOf_eq_some hx
  exact ⟨hc, Dev.core_lt_of_job hj, hk⟩

end Sys2Proof

namespace Sys2Proof.Machine

/-! ### What the bookkeeping of an issue keeps -/

/-- A slip record reaches nothing that a change of a partition and a write to HBM leave (R52). -/
theorem Dev.slipRec_keeps {α : Type} (view : Dev → α) (hpart : ∀ d p g, view (Dev.modPart d p g) = view d)
    (hwrite : ∀ d o a bs, view (Dev.ownerWrite d o a bs) = view d) (d : Dev) (x : Ctx)
    (core cause start stall ip : Nat) : view (d.slipRec x core cause start stall ip) = view d := by
  unfold Dev.slipRec
  cases d.part? x.entry.part with
  | none => rfl
  | some p =>
    dsimp only
    rw [hpart]
    cases ringSlot p.slipRing 4 20 32 p.granted p.slipSeq with
    | none => rfl
    | some a =>
      dsimp only
      rw [hpart, hwrite]

/-- Booking an issue leaves the contexts, the waymarks and the cores' length registers. -/
theorem Dev.book_keeps (d : Dev) (s : Seat) (c t plan start cause : Nat) (vxe : Bool) (cls : Nat)
    (pre : Option (Nat × Nat)) :
    let e := d.book s c t plan start cause vxe cls pre
    e.ctxs = d.ctxs ∧ e.wmk = d.wmk ∧ e.cores.length = d.cores.length ∧
      ∀ v, (e.core v).run.lrs = (d.core v).run.lrs := by
  have hctxs := d.slipRec_keeps Dev.ctxs (fun _ _ _ => rfl) (fun _ _ _ _ => rfl) s.x c cause (s.x.localCk start)
    (t - plan) s.k.run.ip
  have hwmk := d.slipRec_keeps Dev.wmk (fun _ _ _ => rfl) (fun _ _ _ _ => rfl) s.x c cause (s.x.localCk start)
    (t - plan) s.k.run.ip
  have hcores := d.slipRec_keeps Dev.cores (fun _ _ _ => rfl) (fun _ _ _ _ => rfl) s.x c cause (s.x.localCk start)
    (t - plan) s.k.run.ip
  have hcore : ∀ v, (d.slipRec s.x c cause (s.x.localCk start) (t - plan) s.k.run.ip).core v = d.core v := fun v => by
    simp only [Dev.core, hcores]
  dsimp only [Dev.book]
  by_cases hst : 0 < t - plan
  · simp only [if_pos hst]
    refine ⟨hctxs, hwmk, by simp [modAt_length, hcores], fun v => ?_⟩
    rw [Dev.core_modCore, Dev.core_modCore, hcore]
    repeat' split
    all_goals rfl
  · simp only [if_neg hst]
    refine ⟨rfl, rfl, by simp [modAt_length], fun v => ?_⟩
    rw [Dev.core_modCore]
    split <;> rfl

/-! ### Waymark rows -/

theorem LReg.set_at (l : LReg) (t v p r : Nat) : (l.set t v p r).at (t + 1) = (v, p) := by
  simp [LReg.at, LReg.set]

/-- A length register of a core after a CFA's result is set: the others are left. -/
theorem CoreRun.lr_modAt (r : CoreRun) (n v : Nat) (g : LReg → LReg) (hn : n < r.lrs.length) :
    ({ r with lrs := modAt g n r.lrs } : CoreRun).lr v = if v = n then g (r.lr v) else r.lr v := by
  by_cases hv : v = n
  · subst hv
    simp [CoreRun.lr, modAt_same, List.getElem?_eq_getElem hn]
  · simp [CoreRun.lr, modAt_ne g n v r.lrs (Ne.symm hv), hv]

/-- What a CFA leaves: its waymark by `f`, the others as they were, and COUNT in its length register (R269, R270). -/
theorem Dev.cfa_spec (d : Dev) (s : Seat) (c w t : Nat) (f : Waymark → Waymark) (load : Bool)
    (hf : ∀ m, (f m).ix = m.ix) (hc : c < d.cores.length) (hl : (d.core c).run.lrs.length = 8) :
    let e := d.cfa s c w t f load
    let n := s.x.devWm s.p (bits w 24 16)
    let l := (e.core c).run.lr (bits w 72 3)
    e.wmkAt n = f (d.wmkAt n) ∧ (∀ v, v ≠ n → e.wmkAt v = d.wmkAt v) ∧ (l.at (t + 1)).1 = (d.wmkAt n).count ∧
      l.readable = t + 24 ∧ ∀ v, v ≠ bits w 72 3 → (e.core c).run.lr v = (d.core c).run.lr v := by
  intro e n l
  have hix : (f (d.wmkAt n)).ix = n := (hf _).trans (d.wmkAt_ix n)
  obtain ⟨d', hd', hcores, hwmk⟩ : ∃ d' : Dev, e = (d'.putWmk (f (d.wmkAt n))).modCore c (fun k => { k with run :=
      { k.run with lrs := modAt (fun l => l.set t (d.wmkAt n).count l.planned (t + 24)) (bits w 72 3) k.run.lrs } }) ∧
      d'.cores = d.cores ∧ d'.wmk = d.wmk := by
    refine ⟨_, rfl, ?_, ?_⟩ <;> split <;> rfl
  have hwm : ∀ v, d'.wmkAt v = d.wmkAt v := fun v => by simp only [Dev.wmkAt, hwmk]
  have hwe : ∀ v, e.wmkAt v = (d'.putWmk (f (d.wmkAt n))).wmkAt v := fun v => by rw [hd']; rfl
  have hlr : ∀ v, (e.core c).run.lr v = if v = bits w 72 3 then ((d.core c).run.lr v).set t (d.wmkAt n).count
      ((d.core c).run.lr v).planned (t + 24) else (d.core c).run.lr v := fun v => by
    have hk : (d'.putWmk (f (d.wmkAt n))).core c = d.core c := by simp [Dev.core, hcores]
    rw [hd', Dev.core_modCore_same _ _ _ (by simpa [hcores] using hc), hk]
    exact CoreRun.lr_modAt _ _ _ _ (hl ▸ Nat.mod_lt _ (by decide))
  refine ⟨?_, fun v hv => ?_, ?_, ?_, fun v hv => by rw [hlr, if_neg hv]⟩
  · rw [hwe]
    exact (congrArg _ hix.symm).trans (d'.wmkAt_putWmk_same _)
  · rw [hwe, d'.wmkAt_putWmk_ne _ (hix.symm ▸ hv), hwm]
  · show (((e.core c).run.lr (bits w 72 3)).at (t + 1)).1 = _
    rw [hlr, if_pos rfl, LReg.set_at]
  · show ((e.core c).run.lr (bits w 72 3)).readable = _
    rw [hlr, if_pos rfl]
    rfl

end Sys2Proof.Machine

namespace Sys2Proof
open Machine

/-- A WMS adds its value to its job's pending adds, visible 24 ck after its issue; no waymark changes yet (R268). -/
theorem Issuing.wms {c : Nat} {st : State} {s : Seat} {w t plan : Nat} (h : Issuing st.dev .wms c s w t plan) :
    Completes (.wms c) st fun d =>
      (d.ctx? s.x.entry.id).map (·.adds) = some (s.x.adds ++ [(s.x.devWm s.p (bits w 24 16), bits w 40 32, t + 24)]) ∧
      d.wmk = (Reached st.dev c t).wmk := by
  obtain ⟨start, cause, vxe, heq⟩ := h.completes "WMS" Ecc.none rfl fun d s w t =>
    d.modCtx s.x.entry.id fun x =>
      { x with adds := x.adds ++ [(s.x.devWm s.p (bits w 24 16), bits w 40 32, t + 24)] }
  refine ⟨_, heq, ?_⟩
  obtain ⟨hctxs, hwmk, -, -⟩ := Dev.book_keeps ((Reached st.dev c t).counted c 0) (s.counted 0) c t plan start cause vxe
    TileOp.wms.cls none
  refine ⟨?_, hwmk⟩
  have hx : ∀ e : Dev, e.ctxs = (Reached st.dev c t).ctxs → e.ctx? s.x.entry.id = some s.x := fun e he => by
    rw [← h.ctx.1, Dev.ctx?, he, Dev.ctx?]
  exact congrArg _ ((Dev.ctx_modCtx_same _ s.x.entry.id (fun x => { x with
    adds := x.adds ++ [(s.x.devWm s.p (bits w 24 16), bits w 40 32, t + 24)] }) fun _ => rfl).trans
      (congrArg _ (hx _ hctxs)))

/-- A CFA row that issues acts on the waymarks and length registers of the ck it issues in. -/
theorem Issuing.cfa {st : State} {row : TileOp} {c : Nat} {s : Seat} {w t plan : Nat}
    (h : Issuing st.dev row c s w t plan) (hl : s.k.run.lrs.length = 8) (name : String)
    (f : Nat → Waymark → Waymark) (load : Bool) (hf : ∀ m, (f w m).ix = m.ix) :
    ∃ d : Dev, tileRow name row c Ecc.none (fun d s w t => d.cfa s c w t (f w) load) st = .next (st.withDev d) ∧
      let e := Reached st.dev c t
      let n := s.x.devWm s.p (bits w 24 16)
      let l := (d.core c).run.lr (bits w 72 3)
      d.wmkAt n = f w (e.wmkAt n) ∧ (∀ v, v ≠ n → d.wmkAt v = e.wmkAt v) ∧ (l.at (t + 1)).1 = (e.wmkAt n).count ∧
        l.readable = t + 24 ∧ ∀ v, v ≠ bits w 72 3 → (d.core c).run.lr v = s.k.run.lr v := by
  obtain ⟨start, cause, vxe, heq⟩ := h.completes name Ecc.none rfl fun d s w t => d.cfa s c w t (f w) load
  refine ⟨_, heq, ?_⟩
  obtain ⟨-, hlen, hk⟩ := h.ctx
  generalize (if row = TileOp.prefix_ then some (bits w 24 20, bits w 44 20) else none) = pre
  obtain ⟨-, hwmk, hcores, hlrs⟩ := Dev.book_keeps ((Reached st.dev c t).counted c Ecc.none.corrected)
    (s.counted Ecc.none.corrected) c t plan start cause vxe row.cls pre
  have hrun : (((Reached st.dev c t).counted c Ecc.none.corrected).core c).run = s.k.run := by
    rw [Dev.counted, Dev.core_modCore_same _ _ _ hlen, hk]
  generalize ((Reached st.dev c t).counted c Ecc.none.corrected).book (s.counted Ecc.none.corrected) c t plan start cause
    vxe row.cls pre = b at hwmk hcores hlrs ⊢
  have hbl : (b.core c).run.lrs = s.k.run.lrs := (hlrs c).trans (by rw [hrun])
  have hwm : ∀ v, b.wmkAt v = (Reached st.dev c t).wmkAt v := fun v => by
    simp only [Dev.wmkAt, hwmk]
    rfl
  have hlr : ∀ v, (b.core c).run.lr v = s.k.run.lr v := fun v => by simp only [CoreRun.lr, hbl]
  have hlt : c < b.cores.length := by
    rw [hcores]
    simpa [Dev.counted, modAt_length] using hlen
  have hspec := b.cfa_spec (s.counted Ecc.none.corrected) c w t (f w) load hf hlt (by rw [hbl, hl])
  simp only [hwm, hlr] at hspec
  exact hspec

/-- Settles O45: the issue's bookkeeping keeps the waymarks, and each row's effect is that of `Dev.cfa` on them. -/
theorem waymarkRowsActOnTheirWaymark : Obligations.WaymarkRowsActOnTheirWaymark := by
  refine ⟨fun c st s w t plan h => h.wms, fun row c st s w t plan hrow h hl => ?_, fun _ _ => wmSat_iff⟩
  rcases hrow with rfl | rfl | rfl
  · obtain ⟨d, heq, hn, hrest⟩ := h.cfa hl "CFA_FETCH_ADD"
      (fun w m => { m with count := (m.count + bits w 40 32) % 2 ^ 32 }) false fun _ => rfl
    exact ⟨d, heq, fun _ => hn, nofun, nofun, hrest⟩
  · obtain ⟨d, heq, hn, hrest⟩ := h.cfa hl "CFA_LOAD" (fun _ => id) true fun _ => rfl
    exact ⟨d, heq, nofun, fun _ => hn, nofun, hrest⟩
  · obtain ⟨d, heq, hn, hrest⟩ := h.cfa hl "CFA_INIT"
      (fun w m => { m with count := bits w 40 32, counter := true }) false fun _ => rfl
    exact ⟨d, heq, nofun, nofun, fun _ => hn, hrest⟩

end Sys2Proof
end

section
/-! SUPPORT. Register writes and reads (R10 to R12): the halves of a 64-bit register, and what REGISTER_WRITE does at an offset
the device serves. -/

namespace Sys2Proof.Machine

open Sys2Proof

/-! ### Halves of a register (R11) -/

theorem and_halfMask_low (m : Nat) : m &&& halfMask .low = m % 2 ^ 32 := Nat.and_two_pow_sub_one_eq_mod m 32

theorem and_halfMask_high {m : Nat} (hm : m < 2 ^ 64) : m &&& halfMask .high = m / 2 ^ 32 * 2 ^ 32 := by
  have hdiv : (m &&& halfMask .high) / 2 ^ 32 = m / 2 ^ 32 := by
    rw [Nat.and_div_two_pow, halfMask, Nat.mul_div_cancel _ (by decide), Nat.and_two_pow_sub_one_eq_mod]
    omega
  have hmod : (m &&& halfMask .high) % 2 ^ 32 = 0 := by
    rw [Nat.and_mod_two_pow, halfMask, Nat.mul_mod_left, Nat.and_zero]
  omega

theorem rwWrite_full {mask v : Nat} (old : Nat) (hm : mask < 2 ^ 64) (hv : v < 2 ^ 64) :
    rwWrite .full mask old v = v &&& mask := by
  have h : mask &&& halfMask .full = mask := (Nat.and_two_pow_sub_one_eq_mod mask 64).trans (Nat.mod_eq_of_lt hm)
  simp only [rwWrite, halfPlace, h, Nat.mod_eq_of_lt hv, Nat.sub_self, Nat.and_zero, Nat.or_zero]

/-- A write of the low half: the register's low bits under the mask, and its high bits as they were. -/
theorem rwWrite_low (mask old v : Nat) :
    rwWrite .low mask old v = (v % 2 ^ 32 &&& mask % 2 ^ 32) ||| (old &&& mask / 2 ^ 32 * 2 ^ 32) := by
  simp only [rwWrite, halfPlace, and_halfMask_low]
  congr 2
  omega

theorem rwWrite_high {mask : Nat} (old v : Nat) (hm : mask < 2 ^ 64) :
    rwWrite .high mask old v = (v % 2 ^ 32 * 2 ^ 32 &&& mask / 2 ^ 32 * 2 ^ 32) ||| (old &&& mask % 2 ^ 32) := by
  simp only [rwWrite, halfPlace, and_halfMask_high hm]
  congr 2
  omega

theorem halfWritesKeepTheOtherHalf : Claims.HalfWritesKeepTheOtherHalf := by
  intro mask old v hm ho hv
  have hmod : ∀ n, n * 2 ^ 32 % 2 ^ 32 = 0 := fun n => Nat.mul_mod_left _ _
  have hdiv : ∀ n, n * 2 ^ 32 / 2 ^ 32 = n := fun n => Nat.mul_div_cancel _ (by decide)
  have hlow : ∀ n, n % 2 ^ 32 / 2 ^ 32 = 0 := fun n => Nat.div_eq_of_lt (Nat.mod_lt _ (by decide))
  refine ⟨rwWrite_full old hm hv, ?_, ?_, ?_, ?_⟩
  · simp only [rwWrite_low, Nat.or_mod_two_pow, Nat.and_mod_two_pow, Nat.mod_mod, hmod, Nat.and_zero, Nat.or_zero]
  · simp only [rwWrite_low, Nat.or_div_two_pow, Nat.and_div_two_pow, hlow, hdiv, Nat.zero_and, Nat.zero_or]
  · simp only [rwWrite_high old v hm, Nat.or_div_two_pow, Nat.and_div_two_pow, hlow, hdiv, Nat.and_zero, Nat.or_zero]
  · simp only [rwWrite_high old v hm, Nat.or_mod_two_pow, Nat.and_mod_two_pow, Nat.mod_mod, hmod, Nat.and_zero, Nat.zero_or]

/-! ### Bytes of a number -/

theorem le_mod : ∀ n v, le n (v % 256 ^ n) = le n v
  | 0, _ => rfl
  | n + 1, v => by
    have hq : v % 256 ^ (n + 1) / 256 = v / 256 % 256 ^ n := by
      rw [Nat.pow_succ', Nat.mod_mul_right_div_self]
    have hb : v % 256 ^ (n + 1) % 256 = v % 256 := Nat.mod_mod_of_dvd v (Nat.dvd_mul_left 256 (256 ^ n))
    have hbyte : BitVec.ofNat 8 (v % 256 ^ (n + 1)) = BitVec.ofNat 8 v := BitVec.eq_of_toNat_eq hb
    simp only [le, hq, le_mod n, hbyte]

theorem ofLe_le : ∀ n v, ofLe (le n v) = v % 256 ^ n
  | 0, v => by simp [le, ofLe, Nat.mod_one]
  | n + 1, v => by
    simp only [le, ofLe, ofLe_le n, BitVec.toNat_ofNat]
    rw [show 256 ^ (n + 1) = 256 * 256 ^ n from Nat.pow_succ', Nat.mod_mul]

/-- Bytes of a number depend on its residue alone. -/
theorem le_congr {n v w : Nat} (h : v % 256 ^ n = w % 256 ^ n) : le n v = le n w := by
  rw [← le_mod n v, h, le_mod]

/-! ### REGISTER_WRITE -/

/-- A write to a register the device serves, of any row but a doorbell, has the register's effect (R10, R437). -/
theorem exec_registerWrite_served {f o : Nat} {r : HostReg} (h : Half) (v : Reg) (s : State) (ho : o % 8 = 0)
    (hs : s.dev.serves f (pageAt f o) = true) (hr : s.dev.regAt f o = some r) (hd : ∀ i, r ≠ .doorbell i) :
    exec (.registerWrite f o h v) s = .next (s.withDev (s.dev.wakeLink.writeReg f r h v.toNat)) := by
  have hw : s.dev.hostWrite f o h v.toNat = s.dev.wakeLink.writeReg f r h v.toNat := by
    unfold Dev.hostWrite
    rw [if_neg (by omega), hr]
    cases r
    case doorbell i => exact absurd rfl (hd i)
    all_goals exact Dev.access_serves _ _ _ _ hs
  exact congrArg (fun d => Host.Outcome.next (s.withDev d)) hw

/-- An offset without a register takes a write without effect (R12, R437). -/
theorem exec_registerWrite_hole {f o : Nat} (h : Half) (v : Reg) (s : State) (ho : o % 8 = 0)
    (hs : s.dev.serves f (pageAt f o) = true) (hr : s.dev.regAt f o = none) :
    exec (.registerWrite f o h v) s = .next (s.withDev s.dev.wakeLink) := by
  have hw : s.dev.hostWrite f o h v.toNat = s.dev.wakeLink := by
    unfold Dev.hostWrite
    rw [if_neg (by omega), hr]
    exact Dev.access_serves _ _ _ _ hs
  exact congrArg (fun d => Host.Outcome.next (s.withDev d)) hw

/-- A misaligned write is dropped and logged (R437). -/
theorem exec_registerWrite_misaligned {f o : Nat} (h : Half) (v : Reg) (s : State) (ho : o % 8 ≠ 0)
    (hs : s.dev.serves f .glb = true) :
    exec (.registerWrite f o h v) s = .next (s.withDev (s.dev.wakeLink.logError f 5 0 0)) := by
  have hw : s.dev.hostWrite f o h v.toNat = s.dev.wakeLink.logError f 5 0 0 := by
    unfold Dev.hostWrite
    rw [if_pos ho]
    exact Dev.access_serves _ _ _ _ hs
  exact congrArg (fun d => Host.Outcome.next (s.withDev d)) hw

theorem Dev.hasCtx_iff (d : Dev) (p : Nat) : d.hasCtx p = true ↔ ∃ x ∈ d.ctxs, x.entry.part = p := by
  simp [Dev.hasCtx]

theorem registerWritesActByTheirRegister : Claims.RegisterWritesActByTheirRegister := by
  intro f o h v s _ _
  refine ⟨fun ho hs => exec_registerWrite_misaligned h v s ho hs, fun ho hs hr => exec_registerWrite_hole h v s ho hs hr,
    fun ho hs hr => exec_registerWrite_served h v s ho hs hr nofun, fun p ho hs hr => ?_⟩
  have hw := exec_registerWrite_served h v s ho hs hr nofun
  have hctx : s.dev.wakeLink.hasCtx p = s.dev.hasCtx p := rfl
  constructor
  · intro hx
    rw [hw, Dev.writeReg, Dev.ringWrite, hctx, if_pos ((Dev.hasCtx_iff _ p).mpr hx)]
  · intro hx
    rw [hw, Dev.writeReg, Dev.ringWrite, hctx, if_neg fun hc => ?_]
    · rfl
    · obtain ⟨x, hmem, hpart⟩ := (Dev.hasCtx_iff _ p).mp hc
      exact hx x hmem hpart

end Sys2Proof.Machine
end

section
/-! SUPPORT. What reads return (R1, R10 to R12, R519, R524), and what REGISTER_WRITE makes of the registers it names. -/

namespace Sys2Proof.Machine

open Sys2Proof

/-! ### The map -/

theorem Dev.readWord_glb (d : Dev) (f : Nat) {x : Nat} (hx : x < 0x1000) : d.readWord f x = d.glbRead f x := by
  unfold Dev.readWord Dev.pfRead Dev.vfRead
  by_cases hf : f = 0 <;> simp [hf, hx]

theorem pageAt_eq_glb {f x : Nat} : pageAt f x = .glb ↔ x < 0x1000 := by
  unfold pageAt
  grind

theorem Dev.pfRead_reserved (d : Dev) {x : Nat}
    (hx : (0x1000 ≤ x ∧ x < 0x10000) ∨ (0x302000 ≤ x ∧ x < 0x400000) ∨ 0x2800000 ≤ x) : d.pfRead x = 0 := by
  unfold Dev.pfRead
  repeat rw [if_neg (by omega)]

theorem Dev.vfRead_reserved (d : Dev) {f x : Nat}
    (hx : (0x3100 ≤ x ∧ x < 0x4000) ∨ (0x6120 ≤ x ∧ x < 0x8000) ∨ 0x7F008 ≤ x) : d.vfRead f x = 0 := by
  unfold Dev.vfRead
  dsimp only
  repeat rw [if_neg (by omega)]

/-- GLB_ID's fields are those of configuration space (R1, R519). -/
theorem glbId_fields (f : Nat) : glbId f % 2 ^ 16 = vendorId ∧ glbId f / 2 ^ 16 % 2 ^ 16 = devId f ∧
    glbId f / 2 ^ 32 % 2 ^ 8 = revisionId ∧ glbId f % 2 ^ 32 = vendorId + devId f * 2 ^ 16 := by
  by_cases hf : f = 0 <;> simp [glbId, devId, hf, fld, vendorId, revisionId]

theorem Dev.configId_ready {d : Dev} {f : Nat} (h : ConfigReady d f) :
    d.configId f 0 = some (vendorId + devId f * 2 ^ 16) ∧ d.configId f 8 = some (revisionId + classCode * 2 ^ 8) := by
  obtain ⟨hb, hp⟩ := h
  rcases hb with hb | hb | hb <;> simp [Dev.configId, hb, hp]

/-! ### Reads of a register -/

theorem Dev.registerRead_served {d : Dev} {f x : Nat} (h : Half) (hs : d.serves f (pageAt f x) = true) :
    d.registerRead f x h = ofLe (halfRead h (d.readWord f x)) := by
  simp [Dev.registerRead, hs]

theorem ofLe_halfRead_full (w : Nat) : ofLe (halfRead .full w) = w % 2 ^ 64 := ofLe_le 8 w

theorem ofLe_halfRead_halves (w : Nat) :
    ofLe (halfRead .low w) + ofLe (halfRead .high w) * 2 ^ 32 = w % 2 ^ 64 := by
  simp only [halfRead, ofLe_le]
  omega

/-- GLB_SCRATCH written through a function is that function's alone, and no other GLB register shows it (R524). -/
theorem Dev.glbRead_scratch (d : Dev) (f v : Nat) {x : Nat} (hf : f < d.fns.length) :
    (d.modFn f fun y => { y with scratch := v }).glbRead f x = if x = 0x28 then v else d.glbRead f x := by
  by_cases hx : x = 0x28
  · subst hx
    simp [Dev.glbRead, Dev.fn_modFn_same d f _ hf]
  · rw [if_neg hx]
    unfold Dev.glbRead
    split
    case h_5 => exact absurd rfl hx
    all_goals rfl

theorem Dev.serves_scratch (d : Dev) (f v : Nat) (p : Page) (hf : f < d.fns.length) :
    (d.modFn f fun y => { y with scratch := v }).serves f p = d.serves f p := by
  simp only [Dev.serves, Dev.fn_modFn_same d f _ hf, Dev.modFn_boot, Dev.modFn_lwd]

theorem Dev.regAt_scratch (d : Dev) (f : Nat) : d.regAt f 0x28 = some .glbScratch := by
  by_cases hf : f = 0 <;> simp [Dev.regAt, hf, pfReg, glbReg, Dev.vfReg]

/-- A whole write sets all of GLB_SCRATCH. -/
theorem Dev.writeReg_scratch (d : Dev) (f : Nat) (v : Reg) :
    d.writeReg f .glbScratch .full v.toNat = d.modFn f fun y => { y with scratch := v.toNat } := by
  have hv : ∀ old, rwWrite .full (2 ^ 64 - 1) old v.toNat = v.toNat := fun old => by
    rw [rwWrite_full old (by decide) v.isLt, Nat.and_two_pow_sub_one_eq_mod, Nat.mod_eq_of_lt v.isLt]
  simp only [Dev.writeReg, hv]

/-- A whole write of GLB_SCRATCH reads back, and the other GLB registers read as before. -/
theorem scratch_reads_back {f : Nat} (v : Reg) (s : State) (hf : f < s.dev.fns.length)
    (hs : s.dev.serves f .glb = true) :
    Completes (.registerWrite f 0x28 .full v) s fun d => d.registerRead f 0x28 .full = v.toNat ∧
      ∀ x h, x ≠ 0x28 → s.dev.serves f (pageAt f x) = true → pageAt f x = .glb →
        d.registerRead f x h = s.dev.registerRead f x h := by
  have hp : pageAt f 0x28 = .glb := pageAt_eq_glb.mpr (by decide)
  have hw := exec_registerWrite_served .full v s rfl (hp ▸ hs) (s.dev.regAt_scratch f) nofun
  rw [Dev.writeReg_scratch] at hw
  have hread : ∀ x h, pageAt f x = .glb →
      (s.dev.wakeLink.modFn f fun y => { y with scratch := v.toNat }).registerRead f x h =
        ofLe (halfRead h (if x = 0x28 then v.toNat else s.dev.readWord f x)) := fun x h hx => by
    have hlt := pageAt_eq_glb.mp hx
    rw [Dev.registerRead_served h (by rw [Dev.serves_scratch s.dev.wakeLink f _ _ hf, hx]; exact hs),
      Dev.readWord_glb _ f hlt, Dev.glbRead_scratch s.dev.wakeLink f _ hf, Dev.readWord_glb _ f hlt]
    rfl
  refine ⟨_, hw, ?_, fun x h hx hsx hpx => ?_⟩
  · rw [hread _ _ hp, if_pos rfl, ofLe_halfRead_full, Nat.mod_eq_of_lt v.isLt]
  · rw [hread _ _ hpx, if_neg hx, Dev.registerRead_served h hsx]

theorem registersReadAsTheMapSays : Claims.RegistersReadAsTheMapSays := by
  refine ⟨fun d f => ?_, fun d x hx => d.pfRead_reserved hx, fun d f x hf hx => ?_, fun d f x hs => ?_,
    fun d f x h hs => by simp [Dev.registerRead, hs], fun f v s _ hf hs => scratch_reads_back v s hf hs⟩
  · rw [d.readWord_glb f (by decide)]
    obtain ⟨hvendor, hdev, hrev, hlow⟩ := glbId_fields f
    refine ⟨hvendor, hdev, hrev, fun hready => ?_⟩
    obtain ⟨h0, h8⟩ := Dev.configId_ready hready
    exact ⟨h0.trans (congrArg some hlow.symm), by rw [h8]; rfl⟩
  · rw [Dev.readWord, if_neg hf, d.vfRead_reserved hx]
  · rw [Dev.registerRead_served _ hs, Dev.registerRead_served _ hs, Dev.registerRead_served _ hs]
    exact ⟨ofLe_halfRead_full _, ofLe_halfRead_halves _⟩

/-- Settles O21, claim by claim. -/
theorem registerWritesKeepTheirRules : Obligations.RegisterWritesKeepTheirRules :=
  ⟨halfWritesKeepTheOtherHalf, registerWritesActByTheirRegister, registersReadAsTheMapSays⟩

end Sys2Proof.Machine
end

section
/-! SUPPORT. Table bases (R92, R119, R137, R422, R458), read-cleared logs (R10, R11, R95, R463) and BAR2 (R438 to R441). -/

namespace Sys2Proof.Machine

open Sys2Proof

/-! ### Table bases -/

theorem Fn.tableBase_set_same (x : Fn) (t v : Nat) : (x.setTableBase t v).tableBase t = v := by
  match t with
  | 0 | 1 | 2 | _ + 3 => rfl

theorem Fn.tableBase_set_ne (x : Fn) {t u : Nat} (v : Nat) (ht : t < 4) (hu : u < 4) (h : u ≠ t) :
    (x.setTableBase t v).tableBase u = x.tableBase u := by
  have hcases : ∀ {i : Nat}, i < 4 → i = 0 ∨ i = 1 ∨ i = 2 ∨ i = 3 := by omega
  rcases hcases ht with rfl | rfl | rfl | rfl <;> rcases hcases hu with rfl | rfl | rfl | rfl
  all_goals try contradiction
  all_goals rfl

theorem tableMask_lt (t : Nat) : tableMask t < 2 ^ 64 := by
  unfold tableMask
  split
  · decide
  · split <;> decide

/-- A table that moves changes its function and the mirror (R422). -/
theorem Dev.moveTable_eq (d : Dev) (f t base : Nat) (set : Fn → Fn) :
    ∃ m, d.moveTable f t base set = { d.modFn f set with mem := { d.mem with mirror := m } } := by
  unfold Dev.moveTable
  dsimp only
  split
  · exact ⟨_, rfl⟩
  · exact ⟨d.mem.mirror, rfl⟩

theorem exec_tableBaseWrite {f : Nat} (t : Nat) (h : Half) (v : Reg) (s : State) (hs : s.dev.serves f .rest = true) :
    exec (.tableBaseWrite f t h v) s = .next (s.withDev (s.dev.wakeLink.writeTable f t h v.toNat)) :=
  congrArg (fun d => Host.Outcome.next (s.withDev d)) (Dev.access_serves _ _ _ _ hs)

theorem tableBasesMoveOnlyWhileUnused : Claims.TableBasesMoveOnlyWhileUnused := by
  intro f t v s _ ht hf hs
  have hu : s.dev.wakeLink.tableInUse f t = s.dev.tableInUse f t := rfl
  refine ⟨fun huse h => ?_, fun huse => ?_⟩
  · rw [exec_tableBaseWrite t h v s hs, Dev.writeTable, if_pos (by simp [hu, huse])]
  · have hbase : rwWrite .full (tableMask t) ((s.dev.wakeLink.fn f).tableBase t) v.toNat = v.toNat &&& tableMask t :=
      rwWrite_full _ (tableMask_lt t) v.isLt
    obtain ⟨m, hm⟩ := s.dev.wakeLink.moveTable_eq f t (v.toNat &&& tableMask t)
      fun x => x.setTableBase t (v.toNat &&& tableMask t)
    have hw : s.dev.wakeLink.writeTable f t .full v.toNat = s.dev.wakeLink.moveTable f t (v.toNat &&& tableMask t)
        fun x => x.setTableBase t (v.toNat &&& tableMask t) := by
      rw [Dev.writeTable, if_neg (by simp [hu, huse, ht])]
      dsimp only
      rw [hbase]
    have heq := exec_tableBaseWrite t .full v s hs
    rw [hw, hm] at heq
    refine ⟨_, heq, ?_, fun u hu4 hut => ?_, fun g hg => ?_, rfl, rfl⟩
    · exact (congrArg (Fn.tableBase · t) (Dev.fn_modFn_same s.dev f _ hf)).trans (Fn.tableBase_set_same _ t _)
    · exact (congrArg (Fn.tableBase · u) (Dev.fn_modFn_same s.dev f _ hf)).trans (Fn.tableBase_set_ne _ _ ht hu4 hut)
    · exact Dev.fn_modFn_ne s.dev _ (Ne.symm hg)

/-! ### Read-cleared logs -/

/-- A read that a page serves answers with its register's bytes (R437, R456). -/
theorem Dev.accessRead_serves (d : Dev) (f : Nat) (p : Page) (n : Nat) (k : Dev → Dev × List Byte)
    (h : d.serves f p = true) : d.accessRead f p n k = (k d.wakeLink).1.emit (.data f (k d.wakeLink).2) := by
  have hw : d.wakeLink.serves f p = true := h
  have h' := h
  simp only [Dev.serves, Bool.and_eq_true, Bool.not_eq_true'] at h'
  simp [Dev.accessRead, h'.1, hw]

/-- What a read of a function's log leaves: the log by `g`, and the bytes it returned. -/
def TookFrom (d : Dev) (f : Nat) (g : Fn → Fn) (bytes : List Byte) (e : Dev) : Prop :=
  e.fn f = g (d.fn f) ∧ (∀ v, v ≠ f → e.fn v = d.fn v) ∧ e.bus = d.bus ++ [.data f bytes] ∧
    e = { d with fns := e.fns, bus := e.bus, link := e.link }

theorem Dev.accessRead_takes {d : Dev} {f : Nat} (n : Nat) (g : Fn → Fn) (bytes : Fn → List Byte)
    (hf : f < d.fns.length) (hs : d.serves f .rest = true) :
    TookFrom d f g (bytes (d.fn f)) (d.accessRead f .rest n fun d => (d.modFn f g, bytes (d.fn f))) := by
  rw [Dev.accessRead_serves _ _ _ _ _ hs]
  exact ⟨Dev.fn_modFn_same d f g hf, fun v hv => Dev.fn_modFn_ne d g (Ne.symm hv), rfl, rfl⟩

theorem errorLogRead_takes {f : Nat} (h : Half) (s : State) (hf : f < s.dev.fns.length)
    (hs : s.dev.serves f .rest = true) : Completes (.errorLogRead f h) s
      (TookFrom s.dev f (·.errorTaken h) (halfRead h (s.dev.fn f).errorWord)) :=
  ⟨_, rfl, Dev.accessRead_takes _ _ (fun x => halfRead h x.errorWord) hf hs⟩

/-- A log's word of which the low half has been read, above bit 32 (R11). -/
theorem leftOf_low_high (e o : Nat) : (leftOf (some .low) (e + 2 ^ 63) + o * 2 ^ 62) / 2 ^ 32 =
    (e + o * 2 ^ 62 + 2 ^ 63) / 2 ^ 32 := by
  simp only [leftOf]
  omega

theorem leftOf_none (e o : Nat) : leftOf none (e + 2 ^ 63) + o * 2 ^ 62 = e + o * 2 ^ 62 + 2 ^ 63 := by
  simp only [leftOf]
  omega

/-- The low bytes of a log's word are its entry's. -/
theorem le_four_entry (e o : Nat) : le 4 (e + o * 2 ^ 62 + 2 ^ 63) = le 4 e := le_congr (by omega)

theorem Fn.errorWord_cons {x : Fn} {e : Nat} {es : List Nat} (h : x.errLog = e :: es) :
    x.errorWord = leftOf x.errRead (e + 2 ^ 63) + b2n x.errOverflow * 2 ^ 62 := by simp [Fn.errorWord, h]

theorem Fn.errorWord_nil {x : Fn} (h : x.errLog = []) : x.errorWord = b2n x.errOverflow * 2 ^ 62 := by
  simp [Fn.errorWord, h]

/-- A read of the low half of an unread entry leaves the log, with that half read (R11). -/
theorem Fn.errorTaken_low {x : Fn} {e : Nat} {es : List Nat} (hr : x.errRead = none) (hlog : x.errLog = e :: es) :
    (x.errorTaken .low).errLog = e :: es ∧ (x.errorTaken .low).errRead = some .low ∧
      (x.errorTaken .low).errOverflow = x.errOverflow := by
  refine ⟨?_, ?_, Bool.and_true _⟩ <;> simp [Fn.errorTaken, hr, hlog, readBoth]

/-- A read of the high half after the low one removes the entry (R11). -/
theorem Fn.errorTaken_high {x : Fn} {e : Nat} {es : List Nat} (hr : x.errRead = some .low) (hlog : x.errLog = e :: es) :
    (x.errorTaken .high).errLog = es ∧ (x.errorTaken .high).errRead = none ∧
      (x.errorTaken .high).errOverflow = false := by
  refine ⟨?_, ?_, Bool.and_false _⟩ <;> simp [Fn.errorTaken, hr, hlog, readBoth]

theorem Fn.errorTaken_full {x : Fn} (hr : x.errRead = none) :
    (x.errorTaken .full).errLog = x.errLog.drop 1 ∧ (x.errorTaken .full).errOverflow = false := by
  refine ⟨?_, Bool.and_false _⟩
  simp [Fn.errorTaken, hr, readBoth]

theorem errorLogReadsRemoveTheOldest : Claims.ErrorLogReadsRemoveTheOldest := by
  intro f s _ hf hs
  refine ⟨fun e es hlog => ⟨fun hr => ?_, fun hr => ?_⟩, fun hr => ?_⟩
  · obtain ⟨d, heq, hfn, -, hbus, hframe⟩ := errorLogRead_takes .low s hf hs
    obtain ⟨h1, h2, h3⟩ := Fn.errorTaken_low hr hlog
    rw [Fn.errorWord_cons hlog, hr, leftOf_none, halfRead, le_four_entry] at hbus
    exact ⟨d, heq, hfn ▸ h1, hfn ▸ h2, hfn ▸ h3, hbus, hframe⟩
  · obtain ⟨d, heq, hfn, -, hbus, hframe⟩ := errorLogRead_takes .high s hf hs
    obtain ⟨h1, h2, h3⟩ := Fn.errorTaken_high hr hlog
    rw [Fn.errorWord_cons hlog, hr, halfRead, leftOf_low_high] at hbus
    exact ⟨d, heq, hfn ▸ h1, hfn ▸ h2, hfn ▸ h3, hbus, hframe⟩
  · obtain ⟨d, heq, hfn, hne, hbus, hframe⟩ := errorLogRead_takes .full s hf hs
    obtain ⟨h1, h2⟩ := Fn.errorTaken_full hr
    refine ⟨d, heq, fun e es hlog => ⟨?_, ?_⟩, fun hlog => ⟨?_, ?_⟩, hfn ▸ h2, hne, hframe⟩
    · rw [hfn, h1, hlog, List.drop_one, List.tail_cons]
    · rw [hbus, Fn.errorWord_cons hlog, hr, leftOf_none, halfRead]
    · rw [hfn, h1, hlog, List.drop_nil]
    · rw [hbus, Fn.errorWord_nil hlog, halfRead]

end Sys2Proof.Machine
end

section
/-! SUPPORT. BAR2 (R438 to R441): the bytes an access reaches, and where a byte written lands. -/

namespace Sys2Proof.Machine

open Sys2Proof

theorem Dev.commonRead_congr {d e : Dev} (hm : e.mem = d.mem) (hc : e.charter = d.charter) (f off n : Nat) :
    e.commonRead f off n = d.commonRead f off n := by
  have hg : e.commonGrant f = d.commonGrant f := by simp only [Dev.commonGrant, Dev.funcCfg?, hc]
  simp only [Dev.commonRead, hg, Dev.ownerRead_congr hm]

theorem Dev.barRead_congr {d e : Dev} (hm : e.mem = d.mem) (hc : e.charter = d.charter) (f : Nat) (b : Option BarByte) :
    e.barRead f b = d.barRead f b := by
  unfold Dev.barRead
  split
  · exact Dev.commonRead_congr hm hc f _ 1
  · exact Dev.ownerRead_congr hm _ 1 _
  · rw [hc]
  · rfl

theorem Dev.barByte_wakeLink (d : Dev) (f a : Nat) : d.wakeLink.barByte f a = d.barByte f a := rfl

theorem bar2Span_eq {f a n : Nat} (h : a + n ≤ bar2Size f) : bar2Span f a n = n := by
  unfold bar2Span
  omega

theorem Dev.countDenied_none {d : Dev} {f a n : Nat} (h : ∀ i, i < n → (d.barByte f (a + i)).isSome = true) :
    d.countDenied f a n = d := by
  rw [Dev.countDenied, if_pos]
  simpa [upTo] using h

theorem Dev.countDenied_some {d : Dev} {f a n : Nat} (h : ∃ i, i < n ∧ (d.barByte f (a + i)).isSome = false) :
    d.countDenied f a n = d.modFn f fun x => { x with bar2Denied := satAdd 64 x.bar2Denied 1 } := by
  rw [Dev.countDenied, if_neg]
  simpa [upTo] using h

/-- Counting a denied access reaches the function alone. -/
theorem Dev.countDenied_fns (d : Dev) (f a n : Nat) : ∃ fs, d.countDenied f a n = { d with fns := fs } := by
  unfold Dev.countDenied
  split <;> exact ⟨_, rfl⟩

theorem exec_bar2Read {f a n : Nat} (s : State) (hs : s.dev.serves f .rest = true) (ha : a + n ≤ bar2Size f) :
    exec (.bar2Read f a n) s = .next (s.withDev ((s.dev.wakeLink.countDenied f a n).emit
      (.data f ((upTo n).flatMap fun i => s.dev.barRead f (s.dev.barByte f (a + i)))))) := by
  have hb : ∀ b, s.dev.wakeLink.barRead f b = s.dev.barRead f b :=
    Dev.barRead_congr (d := s.dev) (e := s.dev.wakeLink) rfl rfl f
  refine congrArg (fun d => Host.Outcome.next (s.withDev d)) ((Dev.accessRead_serves _ _ _ _ _ hs).trans ?_)
  simp only [Dev.bar2Data, bar2Span_eq ha, hb, Dev.barByte_wakeLink]

theorem exec_bar2Write {f : Nat} (a : Nat) (bs : List Byte) (poisoned : Bool) (s : State)
    (hs : s.dev.serves f .rest = true) :
    exec (.bar2Write f a bs poisoned) s = .next (s.withDev (s.dev.wakeLink.bar2Put f a bs poisoned)) :=
  congrArg (fun d => Host.Outcome.next (s.withDev d)) (Dev.access_serves _ _ _ _ hs)

theorem bar2ReadsAnswerTheirBytes : Claims.Bar2ReadsAnswerTheirBytes := by
  refine ⟨fun f a n s _ _ _ ha hs => ?_, fun f a bs s _ _ _ hs => exec_bar2Write a bs true s hs⟩
  obtain ⟨fs, hfs⟩ := s.dev.wakeLink.countDenied_fns f a n
  refine ⟨_, exec_bar2Read s hs ha, ?_, fun hall => ?_, fun hden hf => ?_, ?_, ?_⟩
  · rw [hfs]
    rfl
  · rw [Dev.countDenied_none (d := s.dev.wakeLink) hall]
    rfl
  · rw [Dev.countDenied_some (d := s.dev.wakeLink) hden]
    exact congrArg Fn.bar2Denied (Dev.fn_modFn_same s.dev f _ hf)
  · rw [hfs]
    rfl
  · rw [hfs]
    rfl

/-- A write of one byte: a denied byte counts, and a byte that is mapped is written at its place. -/
theorem Dev.bar2Put_byte (d : Dev) {f a : Nat} (b : Byte) (ha : a < bar2Size f) :
    d.bar2Put f a [b] false = (d.countDenied f a 1).barWrite f b (d.barByte f a) := by
  have hn : bar2Span f a 1 = 1 := bar2Span_eq ha
  simp [Dev.bar2Put, hn, upTo]

theorem exec_bar2Write_mapped {f a : Nat} {b : Byte} {q : BarByte} (s : State) (ha : a < bar2Size f)
    (hs : s.dev.serves f .rest = true) (hq : s.dev.barByte f a = some q) :
    exec (.bar2Write f a [b] false) s = .next (s.withDev (s.dev.wakeLink.barWrite f b (some q))) := by
  have hc : s.dev.wakeLink.countDenied f a 1 = s.dev.wakeLink := Dev.countDenied_none fun i hi => by
    rw [Nat.lt_one_iff.mp hi, Dev.barByte_wakeLink, Nat.add_zero, hq]
    rfl
  rw [exec_bar2Write a [b] false s hs, Dev.bar2Put_byte _ b ha, hc, Dev.barByte_wakeLink, hq]

theorem exec_bar2Write_denied {f a : Nat} {b : Byte} (s : State) (ha : a < bar2Size f)
    (hs : s.dev.serves f .rest = true) (hq : s.dev.barByte f a = none) :
    exec (.bar2Write f a [b] false) s =
      .next (s.withDev (s.dev.wakeLink.modFn f fun x => { x with bar2Denied := satAdd 64 x.bar2Denied 1 })) := by
  have hc : s.dev.wakeLink.countDenied f a 1 =
      s.dev.wakeLink.modFn f fun x => { x with bar2Denied := satAdd 64 x.bar2Denied 1 } :=
    Dev.countDenied_some ⟨0, by decide, by rw [Dev.barByte_wakeLink, Nat.add_zero, hq]; rfl⟩
  rw [exec_bar2Write a [b] false s hs, Dev.bar2Put_byte _ b ha, hc, Dev.barByte_wakeLink, hq, Dev.barWrite]

theorem bar2WritesLandWhereTheyAreMapped : Claims.Bar2WritesLandWhereTheyAreMapped := by
  intro f a b s _ ha hs
  cases hq : s.dev.barByte f a with
  | none =>
    refine ⟨_, exec_bar2Write_denied s ha hs hq, nofun, nofun, nofun,
      fun _ => ⟨rfl, rfl, rfl, fun hf => congrArg Fn.bar2Denied (Dev.fn_modFn_same s.dev f _ hf)⟩, rfl, rfl, rfl, rfl⟩
  | some q =>
    refine ⟨_, exec_bar2Write_mapped s ha hs hq, fun o ho => ?_, fun p o ho => ?_, fun o ho => ?_, nofun, ?_⟩
    · cases ho
      exact ⟨rfl, rfl, rfl⟩
    · cases ho
      exact ⟨rfl, rfl, rfl⟩
    · cases ho
      exact ⟨rfl, rfl, rfl⟩
    · cases q <;> exact ⟨rfl, rfl, rfl, rfl⟩

/-- Settles O22, claim by claim. -/
theorem tablesLogsAndApertures : Obligations.TablesLogsAndApertures :=
  ⟨tableBasesMoveOnlyWhileUnused, errorLogReadsRemoveTheOldest, bar2ReadsAnswerTheirBytes,
    bar2WritesLandWhereTheyAreMapped⟩

end Sys2Proof.Machine
end

section
/-! SUPPORT. What depots, clips and the end of a CLOSE leave: the frames of their operations, and clips that end (R67, R77, R103,
R115, R391). -/

namespace Sys2Proof.Machine

open Sys2Proof

/-! ### Depots -/

/-- Nothing but depots, their status bits and what is signalled to functions has changed. -/
def Dev.OnlyDepots (d e : Dev) : Prop :=
  e = { d with depots := e.depots, fresh := e.fresh, fns := e.fns, bus := e.bus, link := e.link }

theorem Dev.OnlyDepots.refl (d : Dev) : d.OnlyDepots d := rfl

theorem Dev.OnlyDepots.trans {d e f : Dev} (h : d.OnlyDepots e) (h' : e.OnlyDepots f) : d.OnlyDepots f :=
  Eq.trans h' (congrArg
    (fun e : Dev => { e with depots := f.depots, fresh := f.fresh, fns := f.fns, bus := f.bus, link := f.link }) h)

theorem Dev.OnlyDepots.foldl {α : Type} {f : Dev → α → Dev} (hf : ∀ (d : Dev) (a : α), d.OnlyDepots (f d a)) (l : List α)
    (d : Dev) : d.OnlyDepots (l.foldl f d) :=
  List.foldlRecOn l f (.refl d) fun e he a _ => he.trans (hf e a)

theorem Dev.OnlyDepots.fields {d e : Dev} (h : d.OnlyDepots e) :
    e.video = d.video ∧ e.charter = d.charter ∧ e.trk = d.trk := by
  rw [h]
  exact ⟨rfl, rfl, rfl⟩

theorem Dev.onlyDepots_raiseEvent (d : Dev) (f k : Nat) : d.OnlyDepots (d.raiseEvent f k) := by
  unfold Dev.raiseEvent Dev.raiseVec
  split
  · exact .refl d
  · split <;> rfl

theorem Dev.onlyDepots_putDepot (d : Dev) (x : Depot) : d.OnlyDepots (d.putDepot x) := by
  have hsample : ∀ bs, d.OnlyDepots ((d.modDepot x.id fun _ => x.sample.1).fireAll bs) := fun _ => rfl
  have hraise : ∀ (e : Dev) (l : List Nat), e.OnlyDepots (l.foldl (fun d f => d.raiseEvent f 1) e) := fun e l =>
    .foldl (fun d f => d.onlyDepots_raiseEvent f 1) l e
  unfold Dev.putDepot
  dsimp only
  split
  · split
    · exact ((hsample _).trans (hraise _ _)).trans (hraise _ _)
    · exact (hsample _).trans (hraise _ _)
  · split
    · exact (hsample _).trans (hraise _ _)
    · exact hsample _

theorem Dev.onlyDepots_freeBuf (d : Dev) (id i : Nat) : d.OnlyDepots (d.freeBuf id i) := by
  unfold Dev.freeBuf
  split
  · exact d.onlyDepots_putDepot _
  · exact .refl d

theorem Dev.onlyDepots_freeOwner (d : Dev) (id o : Nat) : d.OnlyDepots (d.freeOwner id o) := by
  unfold Dev.freeOwner
  split
  · exact d.onlyDepots_putDepot _
  · exact .refl d

theorem Dev.onlyDepots_alloc {d : Dev} {id o : Nat} {r : Nat × Dev} (h : d.alloc id o = some r) : d.OnlyDepots r.2 := by
  unfold Dev.alloc at h
  split at h
  · split at h
    · cases h
      exact d.onlyDepots_putDepot _
    · cases h
  · cases h

theorem Dev.onlyDepots_allocN {d : Dev} {id o : Nat} :
    ∀ {n : Nat} {r : List Nat × Dev}, d.allocN id o n = some r → d.OnlyDepots r.2
  | 0, _, h => by
    cases h
    exact .refl d
  | n + 1, _, h => by
    unfold Dev.allocN at h
    split at h
    · rename_i hn
      split at h
      · rename_i ha
        cases h
        exact (Dev.onlyDepots_allocN hn).trans (Dev.onlyDepots_alloc ha)
      · cases h
    · cases h

/-! ### Clips -/

/-- Streams and charter are as they were, and each clip there is was there, under its number and of its stream, and has
ended where it had. -/
structure Dev.ClipsGoOn (d e : Dev) : Prop where
  streams : e.video.streams = d.video.streams
  charter : e.charter = d.charter
  clips : ∀ c ∈ e.video.clips, ∃ b ∈ d.video.clips, b.id = c.id ∧ b.stream = c.stream ∧
    (b.ended.isSome = true → c.ended.isSome = true)

theorem Dev.ClipsGoOn.of_video {d e : Dev} (hv : e.video = d.video) (hc : e.charter = d.charter) : d.ClipsGoOn e :=
  ⟨by rw [hv], hc, fun c h => ⟨c, hv ▸ h, rfl, rfl, id⟩⟩

theorem Dev.ClipsGoOn.refl (d : Dev) : d.ClipsGoOn d := .of_video rfl rfl

theorem Dev.OnlyDepots.clipsGoOn {d e : Dev} (h : d.OnlyDepots e) : d.ClipsGoOn e := .of_video h.fields.1 h.fields.2.1

theorem Dev.ClipsGoOn.trans {d e f : Dev} (h : d.ClipsGoOn e) (h' : e.ClipsGoOn f) : d.ClipsGoOn f where
  streams := h'.streams.trans h.streams
  charter := h'.charter.trans h.charter
  clips c hc := by
    obtain ⟨b, hb, hid, hst, hend⟩ := h'.clips c hc
    obtain ⟨a, ha, hid', hst', hend'⟩ := h.clips b hb
    exact ⟨a, ha, hid'.trans hid, hst'.trans hst, fun he => hend (hend' he)⟩

theorem mem_modIf {α : Type} {p : α → Bool} {g : α → α} {l : List α} {y : α} :
    y ∈ modIf p g l ↔ ∃ x ∈ l, (if p x then g x else x) = y := by
  simp [modIf]

theorem Dev.clipsGoOn_modClip (d : Dev) (id : Nat) (g : Clip → Clip)
    (hg : ∀ c, (g c).id = c.id ∧ (g c).stream = c.stream ∧ (c.ended.isSome = true → (g c).ended.isSome = true)) :
    d.ClipsGoOn (d.modClip id g) where
  streams := rfl
  charter := rfl
  clips c hc := by
    obtain ⟨b, hb, rfl⟩ := mem_modIf.mp hc
    refine ⟨b, hb, ?_⟩
    split
    · exact ⟨(hg b).1.symm, (hg b).2.1.symm, (hg b).2.2⟩
    · exact ⟨rfl, rfl, fun h => h⟩

theorem Dev.clipsGoOn_fitBlocks (d : Dev) (id : Nat) : d.ClipsGoOn (d.fitBlocks id) := by
  unfold Dev.fitBlocks
  split
  · dsimp only
    split
    · split
      · rename_i r hr
        exact (Dev.onlyDepots_allocN hr).clipsGoOn
      · exact .refl d
    · exact (Dev.OnlyDepots.foldl (fun d (h : Nat × Nat) => d.onlyDepots_freeBuf encodeDepot h.1) _ d).clipsGoOn
  · exact .refl d

theorem Dev.clipsGoOn_dropClip (d : Dev) (id : Nat) : d.ClipsGoOn (d.dropClip id) := by
  unfold Dev.dropClip
  split
  · split
    · have hleft : d.ClipsGoOn (d.modVideo fun v => { v with clips := v.clips.filter fun c => c.id != id }) :=
        ⟨rfl, rfl, fun c hc => ⟨c, (List.mem_filter.mp hc).1, rfl, rfl, fun h => h⟩⟩
      exact hleft.trans (Dev.onlyDepots_freeOwner _ _ _).clipsGoOn
    · exact .refl d
  · exact .refl d

theorem Dev.clipsGoOn_flushClip (id : Nat) : ∀ (n : Nat) (d : Dev), d.ClipsGoOn (Dev.flushClip id n d)
  | 0, d => .refl d
  | n + 1, d => by
    have hmod : ∀ (e : Dev) (g : Clip → Clip), d.ClipsGoOn e →
        (∀ c, (g c).id = c.id ∧ (g c).stream = c.stream ∧ (c.ended.isSome = true → (g c).ended.isSome = true)) →
        d.ClipsGoOn (Dev.flushClip id n (e.modClip id g)) := fun e g he hg =>
      (he.trans (e.clipsGoOn_modClip id g hg)).trans (Dev.clipsGoOn_flushClip id n _)
    unfold Dev.flushClip
    split
    · exact .refl d
    · dsimp only
      split
      · exact .refl d
      · split
        · exact hmod _ _ (.of_video rfl rfl) fun _ => ⟨rfl, rfl, fun h => h⟩
        · split
          · split
            · exact hmod _ _ (.of_video rfl rfl) fun _ => ⟨rfl, rfl, fun h => h⟩
            · exact .refl d
          · exact .refl d

theorem Dev.clipsGoOn_pushClip (d : Dev) (id : Nat) : d.ClipsGoOn (d.pushClip id) :=
  ((Dev.clipsGoOn_flushClip id _ d).trans (Dev.clipsGoOn_fitBlocks _ id)).trans (Dev.clipsGoOn_dropClip _ id)

/-- Every clip under a number has ended. -/
def Dev.ClipEnded (d : Dev) (id : Nat) : Prop := ∀ c ∈ d.video.clips, c.id = id → c.ended.isSome = true

theorem Dev.ClipsGoOn.clipEnded {d e : Dev} (h : d.ClipsGoOn e) {id : Nat} (hd : d.ClipEnded id) : e.ClipEnded id := by
  intro c hc hid
  obtain ⟨b, hb, hbid, -, hend⟩ := h.clips c hc
  exact hend (hd b hb (hbid.trans hid))

theorem Dev.clipEnded_modClip (d : Dev) (id : Nat) (g : Clip → Clip) (hg : ∀ c, (g c).ended.isSome = true) :
    (d.modClip id g).ClipEnded id := by
  intro c hc hid
  obtain ⟨b, -, rfl⟩ := mem_modIf.mp hc
  by_cases hb : b.id = id
  · rw [if_pos (by simpa using hb)]
    exact hg b
  · rw [if_neg (by simpa using hb)] at hid
    exact absurd hid hb

/-- Ending a clip lets the others go on, and ends every clip under its number (R103). -/
theorem Dev.endClip_ends (d : Dev) (id reason : Nat) :
    d.ClipsGoOn (d.endClip id reason none) ∧ (d.endClip id reason none).ClipEnded id := by
  unfold Dev.endClip
  split
  · rename_i hnone
    refine ⟨.refl d, fun c hc hid => ?_⟩
    exact absurd hid (by simpa using List.find?_eq_none.mp hnone c hc)
  · have hfree : d.ClipsGoOn (drawFree (drawFree (drawFree (drawFree d).2).2).2).2 := .of_video rfl rfl
    dsimp only
    refine ⟨Dev.ClipsGoOn.trans ?_ (Dev.clipsGoOn_pushClip _ id), (Dev.clipsGoOn_pushClip _ id).clipEnded ?_⟩
    · exact hfree.trans (Dev.clipsGoOn_modClip _ id _ fun _ => ⟨rfl, rfl, fun _ => rfl⟩)
    · exact Dev.clipEnded_modClip _ id _ fun _ => rfl

theorem Dev.clipsGoOn_endAll (reason : Nat) (l : List Clip) (d : Dev) :
    d.ClipsGoOn (l.foldl (fun d c => d.endClip c.id reason none) d) :=
  List.foldlRecOn l _ (.refl d) fun e he c _ => he.trans (e.endClip_ends c.id reason).1

theorem Dev.clipEnded_endAll (reason : Nat) {b : Clip} : ∀ {l : List Clip}, b ∈ l → ∀ d : Dev,
    (l.foldl (fun d c => d.endClip c.id reason none) d).ClipEnded b.id
  | c :: l, hb, d => by
    rcases List.mem_cons.mp hb with rfl | hb
    · exact (Dev.clipsGoOn_endAll reason l _).clipEnded (d.endClip_ends b.id reason).2
    · exact Dev.clipEnded_endAll reason hb _

/-- The clips that are told to end have ended, whatever else goes on (R67, R103). -/
theorem Dev.endClips_ends (d : Dev) (p : Clip → Bool) (reason : Nat)
    (hp : ∀ b c : Clip, b.stream = c.stream → p b = p c) :
    d.ClipsGoOn (d.endClips p reason) ∧
      ∀ c ∈ (d.endClips p reason).video.clips, p c = true → c.ended.isSome = true := by
  refine ⟨Dev.clipsGoOn_endAll reason _ d, fun c hc hpc => ?_⟩
  obtain ⟨b, hb, hid, hst, hend⟩ := (Dev.clipsGoOn_endAll reason _ d).clips c hc
  by_cases he : b.ended.isSome = true
  · exact hend he
  · have hmem : b ∈ d.video.clips.filter fun c => p c && c.ended.isNone :=
      List.mem_filter.mpr ⟨hb, by simpa [hp b c hst, hpc] using he⟩
    exact Dev.clipEnded_endAll reason hmem d c hc hid.symm

/-! ### The end of a CLOSE (R67, R284, R313) -/

/-- A stream's track sets go, and its zones lose observation and CLEAR. -/
theorem Dev.dropSets_spec (d : Dev) (n : Nat) :
    let e := d.dropSets false n
    e.video = d.video ∧ e.charter = d.charter ∧ (∀ t ∈ e.trk.sets, t.stream ≠ n) ∧
      ∀ z ∈ (d.charter.cur.map (·.zones)).getD [], z.stream = n →
        ∃ v ∈ e.trk.verdicts, v.zone = z.id ∧ v.lost = true ∧ v.clear = false := by
  have hseq : ∀ (d : Dev) (k : Track), d.OnlyDepots (d.dropSeq k) := fun d k => by
    unfold Dev.dropSeq
    split
    · exact d.onlyDepots_freeBuf _ _
    · exact .refl d
  have hsets : ∀ (d : Dev) (t : TrackSet), d.OnlyDepots (t.tracks.foldl (fun d k => d.dropSeq k) d) := fun d t =>
    .foldl hseq t.tracks d
  have hgone := Dev.OnlyDepots.foldl hsets (d.trk.sets.filter (·.stream == n)) d
  obtain ⟨hv, hc, -⟩ := hgone.fields
  refine ⟨hv, hc, fun t ht => by simpa using (List.mem_filter.mp ht).2, fun z hz hzn => ?_⟩
  have hzone : z ∈ ((d.charter.cur.map (·.zones)).getD []).filter (·.stream == n) :=
    List.mem_filter.mpr ⟨hz, by simpa using hzn⟩
  unfold Dev.dropSets
  dsimp only
  generalize (d.trk.sets.filter (·.stream == n)).foldl _ d = e
  by_cases hex : e.trk.verdicts.any (·.zone == z.id) = true
  · obtain ⟨v, hv, hvz⟩ := List.any_eq_true.mp hex
    have hany : (((d.charter.cur.map (·.zones)).getD []).filter (·.stream == n)).any (·.id == v.zone) = true :=
      List.any_eq_true.mpr ⟨z, hzone, beq_iff_eq.mpr (beq_iff_eq.mp hvz).symm⟩
    refine ⟨{ v with lost := true, clear := false && v.clear }, List.mem_append_left _ (List.mem_map.mpr ⟨v, hv, ?_⟩),
      by simpa using hvz, rfl, rfl⟩
    rw [if_pos hany]
  · refine ⟨_, List.mem_append_right _ (List.mem_map.mpr ⟨z, List.mem_filter.mpr ⟨hzone, ?_⟩, rfl⟩), rfl, rfl, rfl⟩
    simpa using hex

/-- A sweep removes frames, and nothing else of the video subsystem. -/
theorem Dev.sweepFrames_spec (d : Dev) :
    let e := d.sweepFrames
    e.video.streams = d.video.streams ∧ e.video.clips = d.video.clips ∧ e.charter = d.charter ∧ e.trk = d.trk ∧
      ∀ f ∈ e.video.frames, f ∈ d.video.frames := by
  unfold Dev.sweepFrames
  dsimp only
  generalize hgo : d.video.frames.filter (fun f => f.idle && f.cacheUntil.isNone && !d.video.isTarget f) = go
  obtain ⟨hv, hc, ht⟩ := (Dev.OnlyDepots.foldl (fun d (f : Frame) => d.onlyDepots_freeBuf (videoDepot f.cls) f.ix) go
    (d.modVideo fun v => { v with
      frames := v.frames.filter fun f => !go.any fun g => g.cls == f.cls && g.ix == f.ix })).fields
  rw [hv, hc, ht]
  exact ⟨rfl, rfl, rfl, rfl, fun f hf => (List.mem_filter.mp hf).1⟩

/-- A stream that is released is gone, and its frames keep no mark but their readers'. -/
theorem Dev.releaseStream_spec (d : Dev) (x : Stream) :
    let e := d.releaseStream x
    e.video.streams = d.video.streams.filter (·.id != x.id) ∧ e.video.clips = d.video.clips ∧ e.charter = d.charter ∧
      e.trk = d.trk ∧ ∀ f ∈ e.video.frames, f.stream = x.id → f.refShort = false ∧ f.refLong = false ∧
        f.outputWait = 0 ∧ f.lastOutput = false ∧ f.cacheUntil = none := by
  obtain ⟨hstreams, hclips, hcharter, htrk, hframes⟩ := Dev.sweepFrames_spec (d.modVideo fun v => { v with
    frames := modIf (·.stream == x.id) (fun f => { f with
      refShort := false, refLong := false, outputWait := 0, lastOutput := false, cacheUntil := none }) v.frames
    streams := v.streams.filter (·.id != x.id) })
  refine ⟨hstreams, hclips, hcharter, htrk, fun f hf hst => ?_⟩
  obtain ⟨b, -, rfl⟩ := mem_modIf.mp (hframes f hf)
  by_cases hb : b.stream = x.id
  · rw [if_pos (by simpa using hb)]
    exact ⟨rfl, rfl, rfl, rfl, rfl⟩
  · rw [if_neg (by simpa using hb)] at hst
    exact absurd hst hb

/-- A stream that CLOSE has spent goes, with its track sets, its marks and its clips (R67). -/
theorem streamCloseComplete_ends {n : Nat} {x : Stream} {s : State} (hup : s.dev.mainUp = true)
    (hx : s.dev.stream? n = some x) (hclosing : x.closing = true) (hspent : s.dev.streamSpent x = true) :
    Completes (.streamCloseComplete n) s fun d =>
      d.stream? n = none ∧ (∀ m, m ≠ n → d.stream? m = s.dev.stream? m) ∧ (∀ t ∈ d.trk.sets, t.stream ≠ n) ∧
      (∀ f ∈ d.video.frames, f.stream = n → f.refShort = false ∧ f.refLong = false ∧ f.outputWait = 0 ∧
        f.lastOutput = false ∧ f.cacheUntil = none) ∧
      (∀ z ∈ (s.dev.charter.cur.map (·.zones)).getD [], z.stream = n →
        ∃ v ∈ d.trk.verdicts, v.zone = z.id ∧ v.lost = true ∧ v.clear = false) ∧
      (∀ c ∈ d.video.clips, c.stream = n → c.ended.isSome = true) ∧ d.charter = s.dev.charter := by
  have hid : x.id = n := by simpa using List.find?_some hx
  subst hid
  have hdue : dueClose x.id s.dev = true := by simp [dueClose, hx, hup, hclosing, hspent]
  have heq : exec (.streamCloseComplete x.id) s =
      .next (s.withDev ((s.dev.endClips (fun c => c.stream == x.id) 3).streamClosed x)) := by
    show execStreamCloseComplete x.id s = _
    rw [execStreamCloseComplete, whenDue_due hdue]
    simp only [hx]
  obtain ⟨hgo, hended⟩ := s.dev.endClips_ends (fun c => c.stream == x.id) 3 fun b c h => by rw [h]
  generalize s.dev.endClips (fun c => c.stream == x.id) 3 = e at heq hgo hended
  obtain ⟨hdv, hdc, hdsets, hdzones⟩ := e.dropSets_spec x.id
  obtain ⟨hstreams, hclips, hcharter, htrk, hframes⟩ := (e.dropSets false x.id).releaseStream_spec x
  have hall : ∀ m, (e.streamClosed x).stream? m = (s.dev.video.streams.filter (·.id != x.id)).find? (·.id == m) :=
    fun m => by
      rw [← hgo.streams, ← hdv, ← hstreams]
      rfl
  refine ⟨_, heq, ?_, fun m hm => ?_, ?_, hframes, ?_, fun c hc hcn => ?_, ?_⟩
  · rw [hall]
    simp
  · rw [hall]
    exact find_filter_ne Stream.id _ hm
  · exact fun t ht => hdsets t (htrk ▸ ht)
  · rw [← hgo.charter]
    exact fun z hz hzn => (hdzones z hz hzn).imp fun v hv => ⟨htrk ▸ hv.1, hv.2⟩
  · exact hended c (hdv ▸ hclips ▸ hc) (by simpa using hcn)
  · exact (hcharter.trans hdc).trans hgo.charter

end Sys2Proof.Machine
end

section
/-! SUPPORT. The stream commands (R65, R67, R89, R94) check by check, and VDEC_HEAVY_LOG (R95). -/

namespace Sys2Proof.Machine

open Sys2Proof

/-! ### OPEN's checks in their order (R65) -/

/-- The stream-context entry that OPEN reads. -/
def Dev.openEntry (d : Dev) (f n : Nat) : List Byte := d.commonRead f (d.streamEntry f n) 128

/-- The stream that OPEN makes of the entry, before it has a class. -/
def Dev.openStream (d : Dev) (f n : Nat) : Stream := mkStream f n (d.openEntry f n) (d.firstSerial n)

/-- The entry lies in the function's grant, and its fields are in range (checks 3 to 5 of R65). -/
def Dev.EntryGood (d : Dev) (f n : Nat) : Prop :=
  d.streamEntry f n + 128 ≤ (d.commonGrant f).2 ∧ streamCfgOk (d.openEntry f n) = true

/-- The routes of a stream's slots are bound, none of a sequence, and one of redaction is no other stream's (R65). -/
def Dev.RoutesOk (d : Dev) (x : Stream) : Prop :=
  ∀ q ∈ x.slots, ∃ r, d.route? q.2 = some r ∧ r.sequence = false ∧
    (r.redact = true → ∀ o ∈ d.video.streams, ∀ p ∈ o.slots, p.2 ≠ q.2)

/-- A route that fails OPEN's check of its state. -/
def Dev.badRoute (d : Dev) (r : Nat) : Bool :=
  (match d.route? r with | none => true | some x => x.sequence) ||
  ((d.route? r).any Route.redact && d.video.streams.any fun o => o.slots.any fun q => q.2 == r)

theorem Dev.badRoute_eq_false {d : Dev} {r : Nat} : d.badRoute r = false ↔ ∃ x, d.route? r = some x ∧ x.sequence = false ∧
    (x.redact = true → ∀ o ∈ d.video.streams, ∀ p ∈ o.slots, p.2 ≠ r) := by
  have hany : (d.video.streams.any fun o => o.slots.any fun q => q.2 == r) = false ↔
      ∀ o ∈ d.video.streams, ∀ p ∈ o.slots, p.2 ≠ r := by
    simp only [List.any_eq_false, Bool.not_eq_true, beq_eq_false_iff_ne]
  unfold Dev.badRoute
  cases d.route? r with
  | none => simp
  | some x => simp only [Option.any_some, Bool.or_eq_false_iff, Bool.and_eq_false_imp, hany, Option.some.injEq,
      exists_eq_left']

theorem Dev.any_badRoute {d : Dev} {x : Stream} : (x.slots.map (·.2)).any d.badRoute = true ↔ ¬ d.RoutesOk x := by
  have h : (x.slots.map (·.2)).any d.badRoute = false ↔ d.RoutesOk x := by
    simp only [List.any_eq_false, List.mem_map, Dev.RoutesOk, ← Dev.badRoute_eq_false]
    constructor
    · exact fun h q hq => by simpa using h q.2 ⟨q, hq, rfl⟩
    · rintro h _ ⟨q, hq, rfl⟩
      simp [h q hq]
  rw [← h, Bool.not_eq_false]

/-- What OPEN does with a stream whose routes have passed: its class and its reservation (R75, R387, R389). -/
def Dev.openReserved (d : Dev) (f n tag : Nat) : Dev :=
  let s := d.openStream f n
  match smallestClass s.bufBytes d.depots with
  | none => d.streamEnds f n tag 2
  | some x =>
    if !x.canReserve (s.maxRefs + 2) then d.streamEnds f n tag 2
    else
      let s := { s with cls := x.id }
      let d := d.reserve x.id n (s.maxRefs + 2)
      let d := d.modVideo fun v => { v with streams := v.streams ++ [s] }
      let new := s.slots.map fun q =>
        ({ fn := f, stream := n, slot := q.1, nextId := 1, reidFailed := false, tracks := [] } : TrackSet)
      let d : Dev := { d with trk := { d.trk with sets := d.trk.sets ++ new } }
      (d.putStatus n).streamEnds f n tag 0

/-- OPEN's checks in order (R65). -/
theorem Dev.streamOpen_eq (d : Dev) (f n tag : Nat) : d.streamOpen f n tag =
    if !d.sealed then d.streamEnds f n tag 4
    else if !d.ownsStream f n then d.streamEnds f n tag 3
    else if (d.stream? n).isSome then d.streamEnds f n tag 4
    else if !inSpan (d.commonGrant f).2 (d.streamEntry f n) 128 || !streamCfgOk (d.openEntry f n) then
      d.streamEnds f n tag 1
    else if ((d.openStream f n).slots.map (·.2)).any fun r => !d.ownsRoute f r then d.streamEnds f n tag 3
    else if ((d.openStream f n).slots.map (·.2)).any d.badRoute then d.streamEnds f n tag 4
    else d.openReserved f n tag := rfl

/-! ### Streams by number -/

theorem Dev.stream_modStream_same (d : Dev) (n : Nat) (g : Stream → Stream) (hg : ∀ x, (g x).id = x.id) {x : Stream}
    (hx : d.stream? n = some x) : (d.modStream n g).stream? n = some (g x) := by
  have hid : x.id = n := by simpa using List.find?_some hx
  have h := find_modIf (·.id == n) (·.id == n) g (fun x => by simp [hg]) d.video.streams
  refine h.trans ?_
  rw [show d.video.streams.find? (·.id == n) = some x from hx]
  simp [hid]

theorem Dev.stream_modStream_ne (d : Dev) {n m : Nat} (g : Stream → Stream) (hg : ∀ x, (g x).id = x.id) (hm : m ≠ n) :
    (d.modStream n g).stream? m = d.stream? m := by
  have h := find_modIf (·.id == m) (·.id == n) g (fun x => by simp [hg]) d.video.streams
  refine h.trans ?_
  cases hx : d.stream? m with
  | none => exact congrArg _ hx
  | some x =>
    have hid : x.id = m := by simpa using List.find?_some hx
    rw [show d.video.streams.find? (·.id == m) = some x from hx]
    simp [hid, hm]

/-- Status words go to memory alone. -/
theorem Dev.putStatus_mem (d : Dev) (n : Nat) : ∃ m, d.putStatus n = { d with mem := m } := by
  unfold Dev.putStatus
  split
  · exact ⟨_, rfl⟩
  · exact ⟨d.mem, rfl⟩

theorem Dev.depot_reserve (d : Dev) {id : Nat} (o m : Nat) {x : Depot} (hx : d.depot? id = some x) :
    (d.reserve id o m).depot? id = some { x with res := x.res.filter (·.1 != o) ++ [(o, m)] } := by
  have hid : x.id = id := by simpa using List.find?_some hx
  have h := find_modIf (·.id == id) (·.id == id) (fun x : Depot => { x with res := x.res.filter (·.1 != o) ++ [(o, m)] })
    (fun _ => rfl) d.depots
  refine h.trans ?_
  rw [show d.depots.find? (·.id == id) = some x from hx]
  simp [hid]

/-- An OPEN that has passed its checks holds its configuration and its reservation (R65, R75, R387). -/
theorem Dev.openReserved_holds {d : Dev} {f n : Nat} (tag : Nat) {x : Depot} (hn : d.stream? n = none)
    (hx : smallestClass (d.openStream f n).bufBytes d.depots = some x)
    (hroom : x.canReserve ((d.openStream f n).maxRefs + 2) = true) :
    let e := d.openReserved f n tag
    e.stream? n = some { d.openStream f n with cls := x.id } ∧ (∀ m, m ≠ n → e.stream? m = d.stream? m) ∧
      (d.depot? x.id = some x → (e.depot? x.id).map (·.res) =
        some (x.res.filter (·.1 != n) ++ [(n, (d.openStream f n).maxRefs + 2)])) ∧
      (f < d.fns.length → (e.fn f).streamSts.result = 0) ∧ e.ctxs = d.ctxs ∧ e.cores = d.cores := by
  obtain ⟨e, he, hstreams, hdepots, hfns, hctxs, hcores⟩ : ∃ e : Dev, d.openReserved f n tag = e.streamEnds f n tag 0 ∧
      e.video.streams = d.video.streams ++ [{ d.openStream f n with cls := x.id }] ∧
      e.depots = (d.reserve x.id n ((d.openStream f n).maxRefs + 2)).depots ∧ e.fns = d.fns ∧ e.ctxs = d.ctxs ∧
      e.cores = d.cores := by
    unfold Dev.openReserved
    simp only [hx, hroom, Bool.not_true, Bool.false_eq_true, if_false]
    obtain ⟨m, hm⟩ := Dev.putStatus_mem _ n
    refine ⟨_, rfl, ?_, ?_, ?_, ?_, ?_⟩ <;> rw [hm] <;> rfl
  have hs : ∀ m, (e.streamEnds f n tag 0).stream? m = (d.video.streams ++ [{ d.openStream f n with cls := x.id }]).find?
      (·.id == m) := fun m => by
    rw [← hstreams]
    rfl
  rw [he]
  refine ⟨?_, fun m hm => ?_, fun hd => ?_, fun hf => ?_, hctxs, hcores⟩
  · rw [hs, List.find?_append, show d.video.streams.find? (·.id == n) = none from hn]
    simp [Dev.openStream, mkStream]
  · rw [hs, List.find?_append]
    have hne : (n == m) = false := by simpa using Ne.symm hm
    simp [Dev.openStream, mkStream, hne, Dev.stream?]
  · have hr : (e.streamEnds f n tag 0).depot? x.id = (d.reserve x.id n ((d.openStream f n).maxRefs + 2)).depot? x.id :=
      congrArg (List.find? fun y : Depot => y.id == x.id) hdepots
    rw [hr, d.depot_reserve _ _ hd]
    rfl
  · exact congrArg (·.streamSts.result) (Dev.fn_modFn_same e f _ (hfns ▸ hf))

/-! ### Stream commands that are taken (R94) -/

/-- The device as a command register takes a command: the link carries the write, and a free value times BUSY (log 45). -/
def Dev.atCommand (d : Dev) : Dev := { d.wakeLink with free := d.free + 1 }

theorem Dev.takeCmd_free {d : Dev} {f : Nat} {p : CmdPort} (us : Nat) (k : Dev → Dev) (h : Busy d f p = false) :
    d.takeCmd f p us k = Taken d f p us k := by
  unfold Busy at h
  simp [Dev.takeCmd, Taken, h]

theorem Dev.openEntry_atCommand (d : Dev) (f n : Nat) : d.atCommand.openEntry f n = d.openEntry f n :=
  Dev.commonRead_congr (d := d) (e := d.atCommand) rfl rfl f _ 128

theorem Dev.openStream_atCommand (d : Dev) (f n : Nat) : d.atCommand.openStream f n = d.openStream f n :=
  congrArg (fun e => mkStream f n e (d.firstSerial n)) (d.openEntry_atCommand f n)

theorem Dev.entryGood_atCommand (d : Dev) (f n : Nat) : d.atCommand.EntryGood f n ↔ d.EntryGood f n := by
  unfold Dev.EntryGood
  rw [d.openEntry_atCommand]
  rfl

theorem Dev.entryBad_iff (d : Dev) (f n : Nat) :
    (!inSpan (d.commonGrant f).2 (d.streamEntry f n) 128 || !streamCfgOk (d.openEntry f n)) = true ↔
      ¬ d.EntryGood f n := by
  simp only [Dev.EntryGood, inSpan, Bool.or_eq_true, Bool.not_eq_true', decide_eq_false_iff_not,
    Decidable.not_and_iff_not_or_not, Bool.not_eq_true]

section Open
variable {d : Dev} {f n : Nat} (tag : Nat)

theorem Dev.streamOpen_unsealed (hs : d.sealed = false) : d.streamOpen f n tag = d.streamEnds f n tag 4 := by
  rw [Dev.streamOpen_eq, if_pos (by simp [hs])]

theorem Dev.streamOpen_foreign (hs : d.sealed = true) (ho : ¬ d.ownsStream f n = true) :
    d.streamOpen f n tag = d.streamEnds f n tag 3 := by
  rw [Dev.streamOpen_eq, if_neg (by simp [hs]), if_pos (by simpa using ho)]

theorem Dev.streamOpen_again (hs : d.sealed = true) (ho : d.ownsStream f n = true) (hn : (d.stream? n).isSome = true) :
    d.streamOpen f n tag = d.streamEnds f n tag 4 := by
  rw [Dev.streamOpen_eq, if_neg (by simp [hs]), if_neg (by simp [ho]), if_pos hn]

theorem Dev.streamOpen_badEntry (hs : d.sealed = true) (ho : d.ownsStream f n = true) (hn : d.stream? n = none)
    (hg : ¬ d.EntryGood f n) : d.streamOpen f n tag = d.streamEnds f n tag 1 := by
  rw [Dev.streamOpen_eq, if_neg (by simp [hs]), if_neg (by simp [ho]), if_neg (by simp [hn]),
    if_pos ((d.entryBad_iff f n).mpr hg)]

/-- An OPEN whose entry is good looks at its routes. -/
theorem Dev.streamOpen_goodEntry (hs : d.sealed = true) (ho : d.ownsStream f n = true) (hn : d.stream? n = none)
    (hg : d.EntryGood f n) : d.streamOpen f n tag =
      if ((d.openStream f n).slots.map (·.2)).any fun r => !d.ownsRoute f r then d.streamEnds f n tag 3
      else if ((d.openStream f n).slots.map (·.2)).any d.badRoute then d.streamEnds f n tag 4
      else d.openReserved f n tag := by
  rw [Dev.streamOpen_eq, if_neg (by simp [hs]), if_neg (by simp [ho]), if_neg (by simp [hn]),
    if_neg (fun h => (d.entryBad_iff f n).mp h hg)]

theorem Dev.streamOpen_foreignRoute (hs : d.sealed = true) (ho : d.ownsStream f n = true) (hn : d.stream? n = none)
    (hg : d.EntryGood f n) (hr : ∃ q ∈ (d.openStream f n).slots, d.ownsRoute f q.2 = false) :
    d.streamOpen f n tag = d.streamEnds f n tag 3 := by
  rw [Dev.streamOpen_goodEntry tag hs ho hn hg, if_pos]
  simpa [List.any_eq_true] using hr

theorem Dev.streamOpen_badRoute (hs : d.sealed = true) (ho : d.ownsStream f n = true) (hn : d.stream? n = none)
    (hg : d.EntryGood f n) (hown : ∀ q ∈ (d.openStream f n).slots, d.ownsRoute f q.2 = true)
    (hr : ¬ d.RoutesOk (d.openStream f n)) : d.streamOpen f n tag = d.streamEnds f n tag 4 := by
  rw [Dev.streamOpen_goodEntry tag hs ho hn hg, if_neg, if_pos (Dev.any_badRoute.mpr hr)]
  simpa [List.any_eq_true] using hown

theorem Dev.streamOpen_passes (hs : d.sealed = true) (ho : d.ownsStream f n = true) (hn : d.stream? n = none)
    (hg : d.EntryGood f n) (hown : ∀ q ∈ (d.openStream f n).slots, d.ownsRoute f q.2 = true)
    (hr : d.RoutesOk (d.openStream f n)) : d.streamOpen f n tag = d.openReserved f n tag := by
  rw [Dev.streamOpen_goodEntry tag hs ho hn hg, if_neg, if_neg fun h => Dev.any_badRoute.mp h hr]
  simpa [List.any_eq_true] using hown

theorem Dev.openReserved_noClass (hx : smallestClass (d.openStream f n).bufBytes d.depots = none) :
    d.openReserved f n tag = d.streamEnds f n tag 2 := by
  simp [Dev.openReserved, hx]

theorem Dev.openReserved_noRoom {x : Depot} (hx : smallestClass (d.openStream f n).bufBytes d.depots = some x)
    (hroom : x.canReserve ((d.openStream f n).maxRefs + 2) = false) :
    d.openReserved f n tag = d.streamEnds f n tag 2 := by
  simp [Dev.openReserved, hx, hroom]

end Open

end Sys2Proof.Machine
end

section
/-! SUPPORT. Stream commands at their registers (R65, R67, R89, R94), and reads of VDEC_HEAVY_LOG (R95). -/

namespace Sys2Proof.Machine

open Sys2Proof

/-! ### The three stream commands, taken -/

section Taken
variable {f n : Nat} (tag : Nat) {s : State}

/-- A stream command that the page serves and its register takes (R94). -/
theorem Dev.streamOp_taken {d : Dev} (op : Nat) (hs : d.serves f .rest = true) (hb : Busy d f .stream = false) :
    (d.access f .rest fun d => d.streamOp f op n tag) = Taken d.wakeLink f .stream 50 fun d => match op with
      | 1 => d.streamOpen f n tag
      | 2 => d.streamClose f n tag
      | 3 => d.clearHeavy f n tag
      | _ => d.streamEnds f n tag 1 :=
  (Dev.access_serves _ _ _ _ hs).trans (Dev.takeCmd_free (d := d.wakeLink) 50 _ hb)

/-- What a taken command makes of the machine is what it makes of the device it is given. -/
theorem taken_congr {k l : Dev → Dev} (h : k s.dev.atCommand = l s.dev.atCommand) :
    Host.Outcome.next (s.withDev (Taken s.dev.wakeLink f .stream 50 k)) =
      (Host.Outcome.next (s.withDev (Taken s.dev.wakeLink f .stream 50 l)) : Ans) :=
  congrArg (fun d : Dev => Host.Outcome.next (s.withDev (d.busyFor f .stream 50 s.dev.free))) h

theorem streamCmd_taken (op : Nat) (hn : n < 2 ^ 14) (hs : s.dev.serves f .rest = true)
    (hb : Busy s.dev f .stream = false) :
    always s (fun d => d.access f .rest fun d => d.streamOp f op (n % 2 ^ 14) (tag % 256)) =
      .next (s.withDev (Taken s.dev.wakeLink f .stream 50 fun d => match op with
        | 1 => d.streamOpen f n (tag % 256)
        | 2 => d.streamClose f n (tag % 256)
        | 3 => d.clearHeavy f n (tag % 256)
        | _ => d.streamEnds f n (tag % 256) 1)) := by
  rw [Nat.mod_eq_of_lt hn]
  exact congrArg (fun d => Host.Outcome.next (s.withDev d)) (Dev.streamOp_taken _ op hs hb)

theorem exec_streamOpen_taken (hn : n < 2 ^ 14) (hs : s.dev.serves f .rest = true)
    (hb : Busy s.dev f .stream = false) : exec (.streamOpen f n tag) s =
      .next (s.withDev (Taken s.dev.wakeLink f .stream 50 fun d => d.streamOpen f n (tag % 256))) :=
  streamCmd_taken tag 1 hn hs hb

theorem exec_streamClose_taken (hn : n < 2 ^ 14) (hs : s.dev.serves f .rest = true)
    (hb : Busy s.dev f .stream = false) : exec (.streamClose f n tag) s =
      .next (s.withDev (Taken s.dev.wakeLink f .stream 50 fun d => d.streamClose f n (tag % 256))) :=
  streamCmd_taken tag 2 hn hs hb

theorem exec_clearHeavy_taken (hn : n < 2 ^ 14) (hs : s.dev.serves f .rest = true)
    (hb : Busy s.dev f .stream = false) : exec (.clearHeavy f n tag) s =
      .next (s.withDev (Taken s.dev.wakeLink f .stream 50 fun d => d.clearHeavy f n (tag % 256))) :=
  streamCmd_taken tag 3 hn hs hb

end Taken

/-- A register that stays BUSY keeps its command's result. -/
theorem Dev.busyFor_result (d : Dev) (f : Nat) (p : CmdPort) (us n : Nat) :
    ((d.busyFor f p us n).fn f).streamSts.result = (d.fn f).streamSts.result := by
  have hcmd : ∀ (x : Fn) (t : Nat), (x.modCmd p fun c => { c with until_ := t }).streamSts.result = x.streamSts.result :=
    fun x t => by cases p <;> rfl
  by_cases h : f < d.fns.length
  · exact (congrArg (·.streamSts.result) (Dev.fn_modFn_same d f (fun x => x.modCmd p fun c =>
      { c with until_ := d.ticks + (Config.freeValue n).toNat % (us * usTicks + 1) }) h)).trans (hcmd _ _)
  · simp [Dev.fn, Dev.busyFor, modAt_same, List.getElem?_eq_none (Nat.le_of_not_lt h)]

/-! ### CLOSE and CLEAR_HEAVY by the stream's state (R67, R89) -/

section CloseAndClear
variable {d : Dev} {f n : Nat} (tag : Nat)

theorem Dev.streamClose_foreign (ho : ¬ d.ownsStream f n = true) :
    d.streamClose f n tag = d.streamEnds f n tag 3 := by
  simp [Dev.streamClose, ho]

theorem Dev.streamClose_none (ho : d.ownsStream f n = true) (hn : d.stream? n = none) :
    d.streamClose f n tag = d.streamEnds f n tag 4 := by
  simp [Dev.streamClose, ho, hn]

theorem Dev.streamClose_again (ho : d.ownsStream f n = true) {x : Stream} (hx : d.stream? n = some x)
    (hc : x.closing = true) : d.streamClose f n tag = d.streamEnds f n tag 4 := by
  simp [Dev.streamClose, ho, hx, hc]

theorem Dev.streamClose_open (ho : d.ownsStream f n = true) {x : Stream} (hx : d.stream? n = some x)
    (hc : x.closing = false) : d.streamClose f n tag =
      (d.modStream n fun x => { x with closing := true }).streamEnds f n tag 0 := by
  simp [Dev.streamClose, ho, hx, hc]

theorem Dev.clearHeavy_foreign (ho : ¬ d.ownsStream f n = true) :
    d.clearHeavy f n tag = d.streamEnds f n tag 3 := by
  simp [Dev.clearHeavy, ho]

theorem Dev.clearHeavy_none (ho : d.ownsStream f n = true) (hn : d.stream? n = none) :
    d.clearHeavy f n tag = d.streamEnds f n tag 4 := by
  simp [Dev.clearHeavy, ho, hn]

/-- The stream without its HEAVY flag. -/
def Stream.calm (x : Stream) : Stream := { x with heavy := false }

theorem Dev.clearHeavy_open (ho : d.ownsStream f n = true) {x : Stream} (hx : d.stream? n = some x) :
    let e := d.clearHeavy f n tag
    e.stream? n = some x.calm ∧ (∀ m, m ≠ n → e.stream? m = d.stream? m) ∧
      (f < d.fns.length → (e.fn f).streamSts.result = 0) := by
  have heq : d.clearHeavy f n tag = ((d.modStream n Stream.calm).putStatus n).streamEnds f n tag 0 := by
    simp only [Dev.clearHeavy, ho, hx, Bool.not_true, Bool.false_eq_true, if_false]
    rfl
  obtain ⟨m, hm⟩ := Dev.putStatus_mem (d.modStream n Stream.calm) n
  rw [heq, hm]
  exact ⟨d.stream_modStream_same n Stream.calm (fun _ => rfl) hx,
    fun m hm => d.stream_modStream_ne Stream.calm (fun _ => rfl) hm,
    fun hf => congrArg (·.streamSts.result) (Dev.fn_modFn_same { d.modStream n Stream.calm with mem := m } f _ hf)⟩

end CloseAndClear

theorem streamCommandsAnswerByState : Claims.StreamCommandsAnswerByState := by
  intro f n tag s _ hn hs hb takes ends off e good new owns routesOk open_
  have hopen : ∀ {k : Dev → Dev}, s.dev.atCommand.streamOpen f n (tag % 256) = k s.dev.atCommand → open_ = takes k :=
    fun h => (exec_streamOpen_taken tag hn hs hb).trans (taken_congr h)
  have hclose : ∀ {k : Dev → Dev}, s.dev.atCommand.streamClose f n (tag % 256) = k s.dev.atCommand →
      exec (.streamClose f n tag) s = takes k :=
    fun h => (exec_streamClose_taken tag hn hs hb).trans (taken_congr h)
  have hclear : ∀ {k : Dev → Dev}, s.dev.atCommand.clearHeavy f n (tag % 256) = k s.dev.atCommand →
      exec (.clearHeavy f n tag) s = takes k :=
    fun h => (exec_clearHeavy_taken tag hn hs hb).trans (taken_congr h)
  have hgood : s.dev.atCommand.EntryGood f n ↔ good := s.dev.entryGood_atCommand f n
  have hnew : s.dev.atCommand.openStream f n = new := s.dev.openStream_atCommand f n
  refine ⟨fun hu => hopen (Dev.streamOpen_unsealed _ hu),
    fun ho => ⟨hclose (Dev.streamClose_foreign _ ho), hclear (Dev.clearHeavy_foreign _ ho)⟩,
    fun hu ho => hopen (Dev.streamOpen_foreign _ hu ho), fun hu ho hx => hopen (Dev.streamOpen_again _ hu ho hx),
    fun hu ho hx => ⟨fun hg => hopen (Dev.streamOpen_badEntry _ hu ho hx (mt hgood.mp hg)),
      fun hg hr => hopen (Dev.streamOpen_foreignRoute _ hu ho hx (hgood.mpr hg) (hnew ▸ hr)), fun hg hown => ?_⟩,
    fun ho hx => ⟨hclose (Dev.streamClose_none _ ho hx), hclear (Dev.clearHeavy_none _ ho hx)⟩,
    fun x ho hx => ⟨fun hc => hclose (Dev.streamClose_again _ ho hx hc),
      fun hc => hclose (Dev.streamClose_open _ ho hx hc), ?_⟩⟩
  · have hown' : ∀ q ∈ (s.dev.atCommand.openStream f n).slots, s.dev.atCommand.ownsRoute f q.2 = true := hnew ▸ hown
    have hroutes : s.dev.atCommand.RoutesOk (s.dev.atCommand.openStream f n) ↔ routesOk := by
      rw [hnew]
      rfl
    have hpass : routesOk → s.dev.atCommand.streamOpen f n (tag % 256) =
        s.dev.atCommand.openReserved f n (tag % 256) := fun hr =>
      Dev.streamOpen_passes _ hu ho hx (hgood.mpr hg) hown' (hroutes.mpr hr)
    refine ⟨fun hr => hopen (Dev.streamOpen_badRoute _ hu ho hx (hgood.mpr hg) hown' (mt hroutes.mp hr)),
      fun hr hcls => hopen ((hpass hr).trans (Dev.openReserved_noClass _ (hnew ▸ hcls))),
      fun x hr hcls => ⟨fun hroom => hopen ((hpass hr).trans (Dev.openReserved_noRoom _ (hnew ▸ hcls) (hnew ▸ hroom))),
        fun hroom => ?_⟩⟩
    obtain ⟨hstream, hother, hdepot, hres, hctxs, hcores⟩ :=
      Dev.openReserved_holds (d := s.dev.atCommand) (tag % 256) hx (hnew ▸ hcls) (hnew ▸ hroom)
    rw [hnew] at hstream hdepot
    exact ⟨_, hopen (k := fun d => d.openReserved f n (tag % 256)) (hpass hr), hstream, hother, hdepot,
      fun hf => (Dev.busyFor_result _ _ _ _ _).trans (hres hf), hctxs, hcores⟩
  · obtain ⟨hstream, hother, hres⟩ := Dev.clearHeavy_open (d := s.dev.atCommand) (f := f) (tag % 256) ho hx
    exact ⟨_, hclear (k := fun d => d.clearHeavy f n (tag % 256)) rfl, hstream, hother,
      fun hf => (Dev.busyFor_result _ _ _ _ _).trans (hres hf)⟩

/-! ### VDEC_HEAVY_LOG (R95) -/

theorem heavyLogRead_takes {f : Nat} (h : Half) (s : State) (hf : f < s.dev.fns.length)
    (hs : s.dev.serves f .rest = true) : Completes (.heavyLogRead f h) s
      (TookFrom s.dev f (·.heavyTaken h) (halfRead h (s.dev.fn f).heavyWord)) :=
  ⟨_, rfl, Dev.accessRead_takes _ _ (fun x => halfRead h x.heavyWord) hf hs⟩

theorem Fn.heavyWord_cons {x : Fn} {h : HeavyNote} {hs : List HeavyNote} (hlog : x.heavy = h :: hs) :
    x.heavyWord = leftOf x.heavyRead (h.stream + h.count * 2 ^ 32 + 2 ^ 63) + b2n x.heavyOverflow * 2 ^ 62 := by
  simp [Fn.heavyWord, hlog]

theorem Fn.heavyWord_nil {x : Fn} (hlog : x.heavy = []) : x.heavyWord = b2n x.heavyOverflow * 2 ^ 62 := by
  simp [Fn.heavyWord, hlog]

/-- A read of the low half of an unread notice leaves the log, with that half read (R11). -/
theorem Fn.heavyTaken_low {x : Fn} (hr : x.heavyRead = none) (hlog : x.heavy ≠ []) :
    (x.heavyTaken .low).heavy = x.heavy ∧ (x.heavyTaken .low).heavyRead = some .low ∧
      (x.heavyTaken .low).heavyOverflow = x.heavyOverflow := by
  refine ⟨?_, ?_, Bool.and_true _⟩ <;> simp [Fn.heavyTaken, hr, hlog, readBoth]

/-- A read of the high half after the low one removes the notice (R11). -/
theorem Fn.heavyTaken_high {x : Fn} (hr : x.heavyRead = some .low) :
    (x.heavyTaken .high).heavy = x.heavy.drop 1 ∧ (x.heavyTaken .high).heavyRead = none ∧
      (x.heavyTaken .high).heavyOverflow = false := by
  refine ⟨?_, ?_, Bool.and_false _⟩ <;> simp [Fn.heavyTaken, hr, readBoth]

theorem Fn.heavyTaken_full {x : Fn} (hr : x.heavyRead = none) :
    (x.heavyTaken .full).heavy = x.heavy.drop 1 ∧ (x.heavyTaken .full).heavyOverflow = false := by
  refine ⟨?_, Bool.and_false _⟩
  simp [Fn.heavyTaken, hr, readBoth]

theorem streamsEndAndHeavyLogsAreRead : Claims.StreamsEndAndHeavyLogsAreRead := by
  refine ⟨fun _ _ _ _ hup hx hclosing hspent => streamCloseComplete_ends hup hx hclosing hspent, fun f s _ hf hs =>
    ⟨fun h rest hlog => ⟨fun hr => ?_, fun hr => ?_⟩, fun hr => ?_⟩⟩
  · obtain ⟨d, heq, hfn, -, hbus, hframe⟩ := heavyLogRead_takes .low s hf hs
    obtain ⟨h1, h2, h3⟩ := Fn.heavyTaken_low hr (hlog ▸ List.cons_ne_nil h rest)
    rw [Fn.heavyWord_cons hlog, hr, leftOf_none, halfRead] at hbus
    exact ⟨d, heq, hfn ▸ h1.trans hlog, hfn ▸ h2, hfn ▸ h3, hbus, hframe⟩
  · obtain ⟨d, heq, hfn, -, hbus, hframe⟩ := heavyLogRead_takes .high s hf hs
    obtain ⟨h1, h2, h3⟩ := Fn.heavyTaken_high hr
    rw [Fn.heavyWord_cons hlog, hr, halfRead, leftOf_low_high] at hbus
    exact ⟨d, heq, hfn ▸ h1.trans (by rw [hlog, List.drop_one, List.tail_cons]), hfn ▸ h2, hfn ▸ h3, hbus, hframe⟩
  · obtain ⟨d, heq, hfn, hne, hbus, hframe⟩ := heavyLogRead_takes .full s hf hs
    obtain ⟨h1, h2⟩ := Fn.heavyTaken_full hr
    refine ⟨d, heq, fun h rest hlog => ⟨?_, ?_⟩, fun hlog => ⟨?_, ?_⟩, hfn ▸ h2, hne, hframe⟩
    · rw [hfn, h1, hlog, List.drop_one, List.tail_cons]
    · rw [hbus, Fn.heavyWord_cons hlog, hr, leftOf_none, halfRead]
    · rw [hfn, h1, hlog, List.drop_nil]
    · rw [hbus, Fn.heavyWord_nil hlog, halfRead]

/-- Settles O53: a command that its register takes is the device's own `streamOpen`, `streamClose` or `clearHeavy`, whose
checks are cases; a CLOSE's end is followed through its clips, track sets and frames; and the heavy log reads as its word. -/
theorem streamsOpenAndClose : Obligations.StreamsOpenAndClose :=
  ⟨streamCommandsAnswerByState, streamsEndAndHeavyLogsAreRead⟩

end Sys2Proof.Machine
end

section
/-! SUPPORT. Command registers while BUSY and when they take a command (R94, R121, R139, R379, R461), and the commands of a
queue (R443, R461). -/

namespace Sys2Proof.Machine

open Sys2Proof

/-! ### One command register of a function -/

theorem Fn.cmd_modCmd_same (x : Fn) (p : CmdPort) (g : CmdSts → CmdSts) : (x.modCmd p g).cmd p = g (x.cmd p) := by
  cases p <;> rfl

theorem Fn.cmd_modCmd_ne (x : Fn) {p q : CmdPort} (g : CmdSts → CmdSts) (h : q ≠ p) : (x.modCmd p g).cmd q = x.cmd q := by
  cases p <;> cases q <;> simp [Fn.modCmd, Fn.cmd] at h ⊢

theorem Dev.takeCmd_busy {d : Dev} {f : Nat} {p : CmdPort} (us : Nat) (k : Dev → Dev) (h : Busy d f p = true) :
    d.takeCmd f p us k = Dropped d f p :=
  if_pos h

/-- A row that writes a command register is an access to its page, which the register takes or drops. -/
theorem exec_port {c : Instr} {f : Nat} {p : CmdPort} (h : portOf c = some (f, p)) :
    ∃ us k, ∀ s, exec c s = always s fun d => d.access f .rest fun d => d.takeCmd f p us k := by
  unfold portOf at h
  split at h <;> cases h <;> exact ⟨_, _, fun _ => rfl⟩

theorem busyRegistersDropCommands : Claims.BusyRegistersDropCommands := by
  refine ⟨fun c f p s hc hs hb => ?_, fun d f us n p hf => ?_⟩
  · obtain ⟨us, k, hexec⟩ := exec_port hc
    exact (hexec s).trans (congrArg (fun d => Host.Outcome.next (s.withDev d))
      ((Dev.access_serves _ _ _ _ hs).trans (Dev.takeCmd_busy (d := s.dev.wakeLink) us k hb)))
  · have hfn : (d.busyFor f p us n).fn f = (d.fn f).modCmd p fun c =>
        { c with until_ := d.ticks + (Config.freeValue n).toNat % (us * usTicks + 1) } := d.fn_modFn_same f _ hf
    refine ⟨?_, rfl, fun q hq => ?_, fun g hg => d.fn_modFn_ne _ hg.symm⟩
    · rw [hfn, Fn.cmd_modCmd_same]
      exact Nat.add_le_add_left (Nat.le_of_lt_succ (Nat.mod_lt _ (Nat.succ_pos _))) _
    · rw [hfn, Fn.cmd_modCmd_ne _ _ hq]

/-! ### Queues by number -/

theorem Dev.queue_id {d : Dev} {q : Nat} {x : Queue} (hx : d.queue? q = some x) : x.id = q := by
  simpa using List.find?_some hx

/-- A change that keeps queues' numbers reaches the queue it names and no other. -/
theorem Dev.queue_modQueue (d : Dev) (p q : Nat) {g : Queue → Queue} (hg : ∀ x, (g x).id = x.id) :
    (d.modQueue q g).queue? p = (d.queue? p).map fun x => if x.id == q then g x else x :=
  find_modIf (fun x : Queue => x.id == p) (fun x : Queue => x.id == q) g (fun x => by rw [hg]) d.queues

theorem Dev.queue_modQueue_same (d : Dev) {q : Nat} {g : Queue → Queue} (hg : ∀ x, (g x).id = x.id) {x : Queue}
    (hx : d.queue? q = some x) : (d.modQueue q g).queue? q = some (g x) := by
  simp [d.queue_modQueue q q hg, hx, Dev.queue_id hx]

theorem Dev.queue_modQueue_ne (d : Dev) {p q : Nat} {g : Queue → Queue} (hg : ∀ x, (g x).id = x.id) (hp : p ≠ q) :
    (d.modQueue q g).queue? p = d.queue? p := by
  rw [d.queue_modQueue p q hg]
  cases hx : d.queue? p with
  | none => rfl
  | some x => simp [Dev.queue_id hx, hp]

theorem Dev.qstate_eq_two {d : Dev} {q : Nat} {x : Queue} (hx : d.queue? q = some x) :
    d.qstate q = 2 ↔ x.st = .error := by
  cases h : x.st <;> simp [Dev.qstate, hx, h]

theorem Dev.qstate_disabled {d : Dev} {q : Nat} {x : Queue} (hx : d.queue? q = some x) (hd : x.st = .disabled) :
    d.qstate q = 0 := by
  simp [Dev.qstate, hx, hd]

/-! ### QUERY, RESET and DISABLE by the queue's state (R443) -/

/-- The queue is disabled at once, and its command ends well. -/
def Dev.queueStops (d : Dev) (f q tag : Nat) : Dev :=
  (d.modQueue q fun x => { x with st := .disabled }).queueEnds f q tag 0

/-- The queue stays until its records are written, and its command stays BUSY. -/
def Dev.queueWaits (d : Dev) (f q tag : Nat) : Dev :=
  (d.modQueue q fun x => { x with disabling := true }).modFn f fun y =>
    { y with queueSts := { y.queueSts with busy := true, tag := tag } }

section ByState
variable {d : Dev} {f q : Nat} (tag : Nat) {x : Queue}

theorem Dev.queueQuery_owned (ho : d.ownsQueue f q = true) : d.queueQuery f q tag = d.queueEnds f q tag 0 := by
  simp [Dev.queueQuery, ho]

theorem Dev.queueReset_error (ho : d.ownsQueue f q = true) (hx : d.queue? q = some x) (he : x.st = .error) :
    d.queueReset f q tag = d.queueStops f q tag := by
  simp [Dev.queueReset, Dev.queueStops, ho, (Dev.qstate_eq_two hx).mpr he]

theorem Dev.queueReset_else (ho : d.ownsQueue f q = true) (hx : d.queue? q = some x) (he : x.st ≠ .error) :
    d.queueReset f q tag = d.queueEnds f q tag 3 := by
  simp [Dev.queueReset, ho, mt (Dev.qstate_eq_two hx).mp he]

theorem Dev.queueDisable_disabled (ho : d.ownsQueue f q = true) (hx : d.queue? q = some x) (hd : x.st = .disabled) :
    d.queueDisable f q tag = d.queueEnds f q tag 3 := by
  simp [Dev.queueDisable, ho, hx, hd]

theorem Dev.queueDisable_sq (ho : d.ownsQueue f q = true) (hx : d.queue? q = some x) (hd : x.st ≠ .disabled)
    (ht : x.type ≠ 4) : d.queueDisable f q tag = d.queueStops f q tag := by
  simp [Dev.queueDisable, Dev.queueStops, ho, hx, hd, ht]

theorem Dev.queueDisable_named (ho : d.ownsQueue f q = true) (hx : d.queue? q = some x) (hd : x.st ≠ .disabled)
    (ht : x.type = 4) (hn : d.namesCq q = true) : d.queueDisable f q tag = d.queueEnds f q tag 3 := by
  simp [Dev.queueDisable, ho, hx, hd, ht, hn]

/-- A CQ that nothing names and that has no record to write, or that is in ERROR and takes none, stops at once. -/
theorem Dev.queueDisable_cq (ho : d.ownsQueue f q = true) (hx : d.queue? q = some x) (hd : x.st ≠ .disabled)
    (ht : x.type = 4) (hn : d.namesCq q = false) (hw : x.st = .error ∨ d.owesRecords f q = false) :
    d.queueDisable f q tag = d.queueStops f q tag := by
  rcases hw with hw | hw <;> simp [Dev.queueDisable, Dev.queueStops, ho, hx, hd, ht, hn, hw]

theorem Dev.queueDisable_owing (ho : d.ownsQueue f q = true) (hx : d.queue? q = some x) (he : x.st = .enabled)
    (ht : x.type = 4) (hn : d.namesCq q = false) (hw : d.owesRecords f q = true) :
    d.queueDisable f q tag = d.queueWaits f q tag := by
  simp [Dev.queueDisable, Dev.queueWaits, ho, hx, he, ht, hn, hw]

end ByState

/-! ### Queue commands that their register takes (R461) -/

/-- A command that the page serves and its register takes: what it makes of the machine is what it makes of the device it is
given. -/
theorem always_taken {f : Nat} {p : CmdPort} (us : Nat) {s : State} {k l : Dev → Dev} (hs : s.dev.serves f .rest = true)
    (hb : Busy s.dev f p = false) (hk : k s.dev.atCommand = l s.dev.atCommand) :
    always s (fun d => d.access f .rest fun d => d.takeCmd f p us k) =
      .next (s.withDev (Taken s.dev.wakeLink f p us l)) :=
  congrArg (fun d => Host.Outcome.next (s.withDev d)) ((Dev.access_serves _ _ _ _ hs).trans
    ((Dev.takeCmd_free (d := s.dev.wakeLink) us k hb).trans (congrArg (fun d : Dev => d.busyFor f p us s.dev.free) hk)))

theorem queueCommandsAnswerByState : Claims.QueueCommandsAnswerByState := by
  intro f q tag x s _ hq hs ho hx hb takes ends stops
  have hmod : q % 2 ^ 20 = q := Nat.mod_eq_of_lt hq
  have hdisable : ∀ {k : Dev → Dev}, s.dev.atCommand.queueDisable f q (tag % 256) = k s.dev.atCommand →
      exec (.queueDisable f q tag) s = takes k := fun h =>
    always_taken 50 hs hb ((congrArg (s.dev.atCommand.queueDisable f · (tag % 256)) hmod).trans h)
  have hquery : ∀ {k : Dev → Dev}, s.dev.atCommand.queueQuery f q (tag % 256) = k s.dev.atCommand →
      exec (.queueQuery f q tag) s = takes k := fun h =>
    always_taken 50 hs hb ((congrArg (s.dev.atCommand.queueQuery f · (tag % 256)) hmod).trans h)
  have hreset : ∀ {k : Dev → Dev}, s.dev.atCommand.queueReset f q (tag % 256) = k s.dev.atCommand →
      exec (.queueReset f q tag) s = takes k := fun h =>
    always_taken 50 hs hb ((congrArg (s.dev.atCommand.queueReset f · (tag % 256)) hmod).trans h)
  exact ⟨hquery (Dev.queueQuery_owned _ ho), fun he => hreset (Dev.queueReset_error _ ho hx he),
    fun he => hreset (Dev.queueReset_else _ ho hx he), fun hd => hdisable (Dev.queueDisable_disabled _ ho hx hd),
    fun hd ht => hdisable (Dev.queueDisable_sq _ ho hx hd ht),
    fun hd ht hn => hdisable (Dev.queueDisable_named _ ho hx hd ht hn),
    fun hd ht hn hw => hdisable (Dev.queueDisable_cq _ ho hx hd ht hn hw),
    fun he ht hn hw => hdisable (Dev.queueDisable_owing _ ho hx he ht hn hw)⟩

/-! ### The end of a DISABLE that waited (R443) -/

theorem dueCqDisable_some {d : Dev} {q : Nat} {x : Queue} (hx : d.queue? q = some x) :
    dueCqDisable q d = true ↔ x.disabling = true ∧ d.owesRecords x.fn q = false := by
  simp [dueCqDisable, hx]

/-- The queue disabled, with no DISABLE left that waits for it. -/
def Queue.stopped (x : Queue) : Queue := { x with st := .disabled, disabling := false }

theorem Dev.cqDisabled_some {d : Dev} {q : Nat} {x : Queue} (hx : d.queue? q = some x) :
    d.cqDisabled q = (d.modQueue q Queue.stopped).queueEnds x.fn q (d.fn x.fn).queueSts.tag 0 := by
  simp only [Dev.cqDisabled, hx]
  rfl

/-- A queue command that ends reports the queue as it then stands (R461). -/
theorem Dev.queueEnds_queueSts {d : Dev} {f q : Nat} (tag res : Nat) {x : Queue} (hf : f < d.fns.length)
    (hx : d.queue? q = some x) : ((d.queueEnds f q tag res).fn f).queueSts =
      { (d.fn f).queueSts with busy := false, result := res, tag := tag, a := d.qstate q, b := x.device } := by
  unfold Dev.queueEnds
  rw [Dev.fn_modFn_same _ _ _ hf, hx]
  rfl

theorem disablingQueuesEnd : Claims.DisablingQueuesEnd := by
  intro q x s _ hx hd hw
  have hstop : (s.dev.modQueue q Queue.stopped).queue? q = some x.stopped :=
    s.dev.queue_modQueue_same (g := Queue.stopped) (fun _ => rfl) hx
  refine ⟨s.dev.cqDisabled q, whenDue_due ((dueCqDisable_some hx).mpr ⟨hd, hw⟩) s fun d => d.cqDisabled q, ?_⟩
  rw [Dev.cqDisabled_some hx]
  refine ⟨hstop, fun hf => ?_, fun p hp => s.dev.queue_modQueue_ne (fun _ => rfl) hp, rfl⟩
  rw [Dev.queueEnds_queueSts (d := s.dev.modQueue q Queue.stopped) _ _ hf hstop, Dev.qstate_disabled hstop rfl]
  rfl

/-- Settles O27: a row of a command register is an access that the register takes or drops; a queue command that is taken is
the device's own `queueQuery`, `queueReset` or `queueDisable`, whose checks are cases; and the end of a DISABLE is
`cqDisabled`, where it is due. -/
theorem queueCommandsFollowTheQueue : Obligations.QueueCommandsFollowTheQueue :=
  ⟨busyRegistersDropCommands, queueCommandsAnswerByState, disablingQueuesEnd⟩

end Sys2Proof.Machine
end

section
/-! SUPPORT. Route commands (R124, R139): BIND and UNBIND check by check, and routes by number. -/

namespace Sys2Proof.Machine

open Sys2Proof

/-! ### Manifests depend on memory alone -/

theorem Dev.image_congr {d e : Dev} (h : e.mem = d.mem) (p : Part) (off : Nat) : e.image p off = d.image p off := by
  funext a n
  simp only [Dev.image, Dev.partRead, Dev.ownerRead_congr h]

theorem Dev.manifest_congr {d e : Dev} (h : e.mem = d.mem) (p : Part) (off : Nat) : e.manifest p off = d.manifest p off :=
  congrArg (readManifest · off) (Dev.image_congr h p off)

theorem Dev.manifestCheck_congr {d e : Dev} (h : e.mem = d.mem) (p : Part) (bound resident : Bool) (off : Nat) :
    e.manifestCheck p bound resident off = d.manifestCheck p bound resident off := by
  simp only [Dev.manifestCheck, Dev.image_congr h, Dev.manifest_congr h]

/-! ### BIND's checks in their order (R124) -/

/-- The route-table entry that BIND reads. -/
def Dev.bindEntry (d : Dev) (f r : Nat) : List Byte := d.commonRead f (d.routeEntry f r) 128

/-- The entry lies in the function's grant, and its fields are in range (check 1 of R124). -/
def Dev.BindEntryGood (d : Dev) (f r : Nat) : Prop :=
  d.routeEntry f r + 128 ≤ (d.commonGrant f).2 ∧ routeFieldsOk (d.bindEntry f r) = true

theorem Dev.bindEntry_atCommand (d : Dev) (f r : Nat) : d.atCommand.bindEntry f r = d.bindEntry f r :=
  Dev.commonRead_congr (d := d) (e := d.atCommand) rfl rfl f _ 128

theorem Dev.bindEntryGood_atCommand (d : Dev) (f r : Nat) : d.atCommand.BindEntryGood f r ↔ d.BindEntryGood f r := by
  unfold Dev.BindEntryGood
  rw [d.bindEntry_atCommand]
  rfl

theorem Dev.bindFail_atCommand (d : Dev) (f r : Nat) (e : List Byte) : d.atCommand.bindFail f r e = d.bindFail f r e := by
  simp only [Dev.bindFail, Dev.manifest_congr (d := d) (e := d.atCommand) rfl,
    Dev.manifestCheck_congr (d := d) (e := d.atCommand) rfl]
  rfl

theorem Dev.bindEntryBad_iff (d : Dev) (f r : Nat) :
    (!inSpan (d.commonGrant f).2 (d.routeEntry f r) 128 || !routeFieldsOk (d.bindEntry f r)) = true ↔
      ¬ d.BindEntryGood f r := by
  simp only [Dev.BindEntryGood, inSpan, Bool.or_eq_true, Bool.not_eq_true', decide_eq_false_iff_not,
    Decidable.not_and_iff_not_or_not, Bool.not_eq_true]

/-- The route that BIND makes of an entry. -/
def boundRoute (f r : Nat) (e : List Byte) : Route := { id := r, fn := f, desc := e, bound := true }

/-- The device with a route bound; what stood under its number is replaced. -/
def Dev.bindRoute (d : Dev) (f r : Nat) (e : List Byte) : Dev :=
  d.modVideo fun v => { v with routes := v.routes.filter (fun x => x.id != r) ++ [boundRoute f r e] }

section Bind
variable {d : Dev} {f r : Nat} (tag : Nat)

/-- BIND's checks in order (R124). -/
theorem Dev.routeBind_eq : d.routeBind f r tag =
    if !d.sealed then d.routeCmdEnds f r tag 4 8
    else if !d.ownsRoute f r then d.routeCmdEnds f r tag 3 2
    else if !inSpan (d.commonGrant f).2 (d.routeEntry f r) 128 || !routeFieldsOk (d.bindEntry f r) then
      d.routeCmdEnds f r tag 1 1
    else match d.bindFail f r (d.bindEntry f r) with
      | some x => d.routeCmdEnds f r tag x.1 x.2
      | none => (d.bindRoute f r (d.bindEntry f r)).routeCmdEnds f r tag 0 0 := rfl

theorem Dev.routeBind_unsealed (hs : d.sealed = false) : d.routeBind f r tag = d.routeCmdEnds f r tag 4 8 := by
  rw [Dev.routeBind_eq, if_pos (by simp [hs])]

theorem Dev.routeBind_foreign (hs : d.sealed = true) (ho : ¬ d.ownsRoute f r = true) :
    d.routeBind f r tag = d.routeCmdEnds f r tag 3 2 := by
  rw [Dev.routeBind_eq, if_neg (by simp [hs]), if_pos (by simpa using ho)]

theorem Dev.routeBind_badEntry (hs : d.sealed = true) (ho : d.ownsRoute f r = true) (hg : ¬ d.BindEntryGood f r) :
    d.routeBind f r tag = d.routeCmdEnds f r tag 1 1 := by
  rw [Dev.routeBind_eq, if_neg (by simp [hs]), if_neg (by simp [ho]), if_pos ((d.bindEntryBad_iff f r).mpr hg)]

theorem Dev.routeBind_fails (hs : d.sealed = true) (ho : d.ownsRoute f r = true) (hg : d.BindEntryGood f r)
    {x : Nat × Nat} (hx : d.bindFail f r (d.bindEntry f r) = some x) :
    d.routeBind f r tag = d.routeCmdEnds f r tag x.1 x.2 := by
  rw [Dev.routeBind_eq, if_neg (by simp [hs]), if_neg (by simp [ho]),
    if_neg (fun h => (d.bindEntryBad_iff f r).mp h hg), hx]

theorem Dev.routeBind_passes (hs : d.sealed = true) (ho : d.ownsRoute f r = true) (hg : d.BindEntryGood f r)
    (hx : d.bindFail f r (d.bindEntry f r) = none) :
    d.routeBind f r tag = (d.bindRoute f r (d.bindEntry f r)).routeCmdEnds f r tag 0 0 := by
  rw [Dev.routeBind_eq, if_neg (by simp [hs]), if_neg (by simp [ho]),
    if_neg (fun h => (d.bindEntryBad_iff f r).mp h hg), hx]

end Bind

/-! ### UNBIND by the route's state (R124) -/

/-- A slot of an open stream names the route. -/
def Dev.RouteNamed (d : Dev) (r : Nat) : Prop := ∃ y ∈ d.video.streams, ∃ q ∈ y.slots, q.2 = r

/-- A descriptor that is bound no longer (log 17). -/
def Route.unbound (x : Route) : Route := { x with bound := false }

/-- The device with a route unbound. -/
def Dev.unbindRoute (d : Dev) (r : Nat) : Dev :=
  d.modVideo fun v => { v with routes := modIf (·.id == r) Route.unbound v.routes }

theorem Dev.routeNamed_iff (d : Dev) (r : Nat) :
    (d.video.streams.any fun s => s.slots.any fun q => q.2 == r) = true ↔ d.RouteNamed r := by
  simp only [Dev.RouteNamed, List.any_eq_true, beq_iff_eq]

section Unbind
variable {d : Dev} {f r : Nat} (tag : Nat)

theorem Dev.routeUnbind_foreign (ho : ¬ d.ownsRoute f r = true) : d.routeUnbind f r tag = d.routeCmdEnds f r tag 3 0 := by
  rw [Dev.routeUnbind, if_pos (by simpa using ho)]

theorem Dev.routeUnbind_refused (ho : d.ownsRoute f r = true) (h : d.route? r = none ∨ d.RouteNamed r) :
    d.routeUnbind f r tag = d.routeCmdEnds f r tag 4 0 := by
  rw [Dev.routeUnbind, if_neg (by simp [ho]), if_pos]
  rcases h with h | h
  · simp [h]
  · rw [(d.routeNamed_iff r).mpr h, Bool.or_true]

theorem Dev.routeUnbind_passes (ho : d.ownsRoute f r = true) (hb : (d.route? r).isSome = true) (hn : ¬ d.RouteNamed r) :
    d.routeUnbind f r tag = (d.unbindRoute r).routeCmdEnds f r tag 0 0 := by
  rw [Dev.routeUnbind, if_neg (by simp [ho]), if_neg]
  · rfl
  · rw [Bool.eq_false_iff.mpr (mt (d.routeNamed_iff r).mp hn), Bool.or_false, Option.isNone_iff_eq_none]
    exact Option.isSome_iff_ne_none.mp hb

end Unbind

/-! ### Routes by number -/

/-- An update of what a search passes over, before and after it, leaves what the search finds. -/
theorem find_modIf_others {α : Type} {p q : α → Bool} {f : α → α} (h : ∀ x, q x = true → p x = false ∧ p (f x) = false)
    (l : List α) : (modIf q f l).find? p = l.find? p := by
  have hp : (p ∘ fun x => if q x then f x else x) = p := by
    funext x
    by_cases hx : q x = true <;> simp [hx, h]
  rw [modIf, List.find?_map, hp]
  cases hl : l.find? p with
  | none => rfl
  | some x =>
    have hx : q x ≠ true := fun hq => by simpa [(h x hq).1] using List.find?_some hl
    simp [hx]

theorem Dev.route_bindRoute_same (d : Dev) (f r : Nat) (e : List Byte) :
    (d.bindRoute f r e).route? r = some (boundRoute f r e) := by
  have hold : (d.video.routes.filter fun x => x.id != r).find? (fun x => x.bound && x.id == r) = none :=
    List.find?_eq_none.mpr fun x hx => by simp [by simpa using (List.mem_filter.mp hx).2]
  refine List.find?_append.trans ?_
  rw [hold]
  simp [boundRoute]

theorem Dev.route_bindRoute_ne (d : Dev) (f : Nat) {r q : Nat} (e : List Byte) (hq : q ≠ r) :
    (d.bindRoute f r e).route? q = d.route? q := by
  have hkept : (d.video.routes.filter fun x => x.id != r).find? (fun x => x.bound && x.id == q) = d.route? q := by
    rw [List.find?_filter]
    congr 1
    funext x
    by_cases hx : x.id = q <;> simp [hx, hq]
  refine List.find?_append.trans ?_
  rw [hkept]
  simp [boundRoute, Ne.symm hq]

theorem Dev.route_unbindRoute_same (d : Dev) (r : Nat) : (d.unbindRoute r).route? r = none := by
  refine List.find?_eq_none.mpr fun y hy => ?_
  obtain ⟨x, -, rfl⟩ := mem_modIf.mp hy
  by_cases hx : x.id = r <;> simp [hx, Route.unbound]

theorem Dev.route_unbindRoute_ne (d : Dev) {r q : Nat} (hq : q ≠ r) : (d.unbindRoute r).route? q = d.route? q :=
  find_modIf_others (fun x hx => by simp [Route.unbound, show x.id = r by simpa using hx, hq.symm]) d.video.routes

/-- Unbinding keeps every descriptor, for pictures in flight (log 17). -/
theorem Dev.routeDesc_unbindRoute (d : Dev) (r q : Nat) : (d.unbindRoute r).routeDesc q = d.routeDesc q := by
  have hfind := find_modIf (fun x : Route => x.id == q) (fun x => x.id == r) Route.unbound (fun _ => rfl) d.video.routes
  refine (congrArg (fun y : Option Route => (y.map (·.desc)).getD []) hfind).trans ?_
  unfold Dev.routeDesc
  cases d.video.routes.find? (·.id == q) with
  | none => rfl
  | some x => by_cases hx : x.id = r <;> simp [hx, Route.unbound]

/-! ### Route commands at their register (R139) -/

/-- A route command that is taken leaves its RESULT. -/
theorem Dev.routeCmd_result (d : Dev) {f : Nat} (r tag res check us n : Nat) (hf : f < d.fns.length) :
    (((d.routeCmdEnds f r tag res check).busyFor f .route us n).fn f).routeSts.result = res := by
  have hends : (d.routeCmdEnds f r tag res check).fn f = { d.fn f with
      routeSts := { (d.fn f).routeSts with result := res, tag := tag, a := r, b := check } } := Dev.fn_modFn_same d f _ hf
  have hlen : f < (d.routeCmdEnds f r tag res check).fns.length := by simpa [Dev.routeCmdEnds, modAt_length] using hf
  rw [Dev.busyFor, Dev.fn_modFn_same _ _ _ hlen, hends]
  rfl

theorem routeCommandsAnswerByState : Claims.RouteCommandsAnswerByState := by
  intro f r tag s _ hr hs hb ends off e good owns named
  have hmod : r % 2 ^ 16 = r := Nat.mod_eq_of_lt hr
  have hbind : ∀ {k : Dev → Dev}, s.dev.atCommand.routeBind f r (tag % 256) = k s.dev.atCommand →
      exec (.routeBind f r tag) s = .next (s.withDev (Taken s.dev.wakeLink f .route 200 k)) := fun h =>
    always_taken 200 hs hb ((congrArg (s.dev.atCommand.routeBind f · (tag % 256)) hmod).trans h)
  have hunbind : ∀ {k : Dev → Dev}, s.dev.atCommand.routeUnbind f r (tag % 256) = k s.dev.atCommand →
      exec (.routeUnbind f r tag) s = .next (s.withDev (Taken s.dev.wakeLink f .route 200 k)) := fun h =>
    always_taken 200 hs hb ((congrArg (s.dev.atCommand.routeUnbind f · (tag % 256)) hmod).trans h)
  have hentry : s.dev.atCommand.bindEntry f r = e := s.dev.bindEntry_atCommand f r
  have hgood : s.dev.atCommand.BindEntryGood f r ↔ good := s.dev.bindEntryGood_atCommand f r
  have hfail : s.dev.atCommand.bindFail f r (s.dev.atCommand.bindEntry f r) = s.dev.bindFail f r e := by
    rw [hentry, Dev.bindFail_atCommand]
  refine ⟨fun hu => hbind (Dev.routeBind_unsealed _ hu), fun hu ho => hbind (Dev.routeBind_foreign _ hu ho),
    fun ho => hunbind (Dev.routeUnbind_foreign _ ho),
    fun hu ho hg => hbind (Dev.routeBind_badEntry _ hu ho (mt hgood.mp hg)),
    fun x hu ho hg hx => ?_,
    fun hu ho hg hx => ?_, fun ho h => hunbind (Dev.routeUnbind_refused _ ho h), fun ho hbound hn => ?_⟩
  · have hfails := Dev.routeBind_fails (d := s.dev.atCommand) (tag % 256) hu ho (hgood.mpr hg) (hfail.trans hx)
    exact hbind (k := fun d => d.routeCmdEnds f r (tag % 256) x.1 x.2) hfails
  · have hpass := Dev.routeBind_passes (d := s.dev.atCommand) (tag % 256) hu ho (hgood.mpr hg) (hfail.trans hx)
    rw [hentry] at hpass
    exact ⟨_, hbind (k := fun d => (d.bindRoute f r e).routeCmdEnds f r (tag % 256) 0 0) hpass,
      s.dev.route_bindRoute_same f r e, fun q hq => s.dev.route_bindRoute_ne f e hq,
      fun hf => Dev.routeCmd_result _ _ _ _ _ _ _ hf, rfl⟩
  · exact ⟨_, hunbind (k := fun d => (d.unbindRoute r).routeCmdEnds f r (tag % 256) 0 0)
        (Dev.routeUnbind_passes _ ho hbound hn),
      s.dev.route_unbindRoute_same r, s.dev.routeDesc_unbindRoute r r, fun q hq => s.dev.route_unbindRoute_ne hq,
      fun hf => Dev.routeCmd_result _ _ _ _ _ _ _ hf⟩

end Sys2Proof.Machine
end

section
/-! SUPPORT. Passes (R126, R127, R131 to R133, R384, R390): what a grant, a refusal and the end of a pass change, and the job that
a pass puts on its partition's list. -/

namespace Sys2Proof.Machine

open Sys2Proof

/-! ### What the end of a reader leaves (R77, R391) -/

/-- Nothing but streams, frames, depots, their status bits and what is signalled to functions has changed. -/
def Dev.OnlyPool (d e : Dev) : Prop :=
  e = { d with
    video := { d.video with streams := e.video.streams, frames := e.video.frames }
    depots := e.depots, fresh := e.fresh, fns := e.fns, bus := e.bus, link := e.link }

theorem Dev.OnlyPool.refl (d : Dev) : d.OnlyPool d := rfl

theorem Dev.OnlyPool.trans {d e f : Dev} (h : d.OnlyPool e) (h' : e.OnlyPool f) : d.OnlyPool f :=
  Eq.trans h' (congrArg (fun e : Dev => { e with
    video := { e.video with streams := f.video.streams, frames := f.video.frames }
    depots := f.depots, fresh := f.fresh, fns := f.fns, bus := f.bus, link := f.link }) h)

theorem Dev.OnlyPool.fields {d e : Dev} (h : d.OnlyPool e) :
    e.video.passes = d.video.passes ∧ e.video.psc = d.video.psc ∧ e.trk = d.trk ∧ e.parts = d.parts := by
  rw [h]
  exact ⟨rfl, rfl, rfl, rfl⟩

theorem Dev.OnlyDepots.onlyPool {d e : Dev} (h : d.OnlyDepots e) : d.OnlyPool e := by
  unfold Dev.OnlyPool
  rw [h.fields.1]
  exact h

theorem Dev.onlyPool_sweepFrames (d : Dev) : d.OnlyPool d.sweepFrames := by
  unfold Dev.sweepFrames
  refine Dev.OnlyPool.trans (e := d.modVideo fun v => { v with frames := _ }) rfl ?_
  exact (Dev.OnlyDepots.foldl (fun d (f : Frame) => d.onlyDepots_freeBuf (videoDepot f.cls) f.ix) _ _).onlyPool

theorem Dev.onlyPool_prunePics (d : Dev) (n : Nat) : d.OnlyPool (d.prunePics n) := by
  unfold Dev.prunePics
  split
  · exact .refl d
  · rfl

theorem Dev.onlyPool_dropReader (d : Dev) (cls ix n : Nat) : d.OnlyPool (d.dropReader cls ix n) := by
  have hmod : d.OnlyPool (d.modFrame cls ix fun f => { f with readers := f.readers - 1 }) := rfl
  exact hmod.trans ((Dev.onlyPool_sweepFrames _).trans (Dev.onlyPool_prunePics _ _))

theorem Dev.onlyPool_passReads (d : Dev) (x : Pass) : d.OnlyPool (d.passReads x) := by
  unfold Dev.passReads
  split
  · split
    · exact d.onlyPool_dropReader _ _ _
    · exact .refl d
  · exact .refl d

/-! ### Passes by number, and their parameters (R126) -/

/-- The function of a pass, whose counters and records it moves. -/
def Dev.passFn (d : Dev) (x : Pass) : Nat := ((d.stream? x.stream).map (·.fn)).getD 0

theorem Dev.pass_modPass_same (d : Dev) (k : Nat) {g : Pass → Pass} (hg : ∀ y, (g y).seq = y.seq) :
    (d.modPass k g).video.passes.find? (·.seq == k) = (d.video.passes.find? (·.seq == k)).map g := by
  refine (find_modIf (fun y : Pass => y.seq == k) (fun y => y.seq == k) g (fun y => by rw [hg]) d.video.passes).trans ?_
  cases h : d.video.passes.find? (·.seq == k) with
  | none => rfl
  | some y => simp [show y.seq = k by simpa using List.find?_some h]

theorem Dev.passParams_congr {d e : Dev} (hs : e.video.streams = d.video.streams) (hr : e.video.routes = d.video.routes)
    (x : Pass) : e.passParams x = d.passParams x := by
  simp only [Dev.passParams, Dev.pic?, Dev.stream?, Dev.routeDesc, hs, hr]

/-! ### The grant of both buffers (R132, R390) -/

/-- A pass with its two buffers. -/
def Pass.withBufs (i o : Nat) (x : Pass) : Pass := { x with inBuf := some i, outBuf := some o }

/-- Buffers for a pass come from depots alone. -/
theorem Dev.onlyDepots_passBufs {d : Dev} {part : Nat} {r : Nat × Nat × Dev} (h : d.passBufs part = some r) :
    d.OnlyDepots r.2.2 := by
  unfold Dev.passBufs at h
  split at h
  · rename_i hi
    split at h
    · rename_i ho
      cases h
      exact (Dev.onlyDepots_alloc hi).trans (Dev.onlyDepots_alloc ho)
    · cases h
  · cases h

/-- A pass that had its buffers keeps them, and one that had none takes two from their depots. -/
theorem Dev.grantPass_cases {d e : Dev} {x : Pass} (h : d.grantPass x = some e) :
    (x.inBuf.isSome = true ∧ e = d) ∨
      ∃ (d' : Dev) (i o : Nat), d.OnlyDepots d' ∧ e = d'.modPass x.seq (Pass.withBufs i o) := by
  unfold Dev.grantPass at h
  split at h
  · rename_i hx
    cases h
    exact .inl ⟨hx, rfl⟩
  · obtain ⟨r, hr, rfl⟩ := Option.map_eq_some_iff.mp h
    exact .inr ⟨r.2.2, r.1, r.2.1, Dev.onlyDepots_passBufs hr, rfl⟩

/-- What a grant leaves, and the buffers of the pass it names. -/
structure Dev.Granted (d e : Dev) (x : Pass) : Prop where
  run : e.run = d.run
  trk : e.trk = d.trk
  streams : e.video.streams = d.video.streams
  routes : e.video.routes = d.video.routes
  psc : e.video.psc = d.video.psc
  found : (e.video.passes.find? (·.seq == x.seq)).isSome = (d.video.passes.find? (·.seq == x.seq)).isSome
  bufs : ∀ y, e.video.passes.find? (·.seq == x.seq) = some y → x.inBuf = none →
    y.inBuf.isSome = true ∧ y.outBuf.isSome = true

theorem Dev.grantPass_granted {d e : Dev} {x : Pass} (h : d.grantPass x = some e) : d.Granted e x := by
  rcases Dev.grantPass_cases h with ⟨hx, rfl⟩ | ⟨d', i, o, hd, rfl⟩
  · exact ⟨rfl, rfl, rfl, rfl, rfl, rfl, fun _ _ hn => by simp [hn] at hx⟩
  · have hfind := d'.pass_modPass_same x.seq (g := Pass.withBufs i o) fun _ => rfl
    have hrun : d'.run = d.run := by rw [hd]
    obtain ⟨hv, -, ht⟩ := hd.fields
    refine ⟨hrun, ht, congrArg (·.streams) hv, congrArg (·.routes) hv, congrArg (·.psc) hv, ?_, fun y hy _ => ?_⟩
    · rw [hfind, Option.isSome_map, hv]
    · rw [hfind] at hy
      obtain ⟨z, -, rfl⟩ := Option.map_eq_some_iff.mp hy
      exact ⟨rfl, rfl⟩

/-! ### A unit takes a pass (R127, R131, R132) -/

/-- The normalisation words a pass reads as it begins (R131). -/
def Dev.passNorm (d : Dev) (x : Pass) : List Nat :=
  let set := (d.fn (d.passFn x)).normSet (at_ (d.passParams x) 0xF 1)
  set.ch ++ [set.pad]

/-- A pass on a unit from now on, with its parameters and its norm as they stand. -/
def Pass.begun (u tick : Nat) (params : List Byte) (norm : List Nat) (x : Pass) : Pass :=
  { x with unit := some u, startTick := tick, params := params, norm := norm }

/-- A unit with a pass. -/
def PscUnit.taking (x : Pass) (y : PscUnit) : PscUnit := { y with pass := some x.seq, lastRoute := x.route }

/-- A unit takes a pass whose buffers are had. -/
def Dev.passTaken (d : Dev) (u : Nat) (x : Pass) : Dev :=
  (d.modPass x.seq (Pass.begun u d.run (d.passParams x) (d.passNorm x))).modVideo fun v =>
    { v with psc := modAt (PscUnit.taking x) u v.psc }

theorem Dev.passStart_refuses {d : Dev} (u : Nat) {x : Pass} (hx : d.firstPass = some x) (hv : d.passValid x = false) :
    d.passStart u = d.refusePass x := by
  simp [Dev.passStart, hx, hv]

theorem Dev.passStart_takes {d e : Dev} (u : Nat) {x : Pass} (hx : d.firstPass = some x) (hv : d.passValid x = true)
    (he : d.grantPass x = some e) : d.passStart u = e.passTaken u x := by
  simp only [Dev.passStart, hx, hv, he, Bool.not_true, Bool.false_eq_true, if_false]
  rfl

/-- The eligible pass created first can have its buffers where it is valid (R132). -/
theorem Dev.firstPass_granted {d : Dev} {x : Pass} (hx : d.firstPass = some x) (hv : d.passValid x = true) :
    ∃ e, d.grantPass x = some e := by
  have h := List.find?_some hx
  simp only [Dev.eligible, hv, Bool.not_true, Bool.false_or, Bool.and_eq_true] at h
  exact Option.isSome_iff_exists.mp h.2

theorem Dev.firstPass_found {d : Dev} {x : Pass} (hx : d.firstPass = some x) :
    (d.video.passes.find? (·.seq == x.seq)).isSome = true :=
  List.find?_isSome.mpr ⟨x, List.mem_of_find?_eq_some hx, beq_self_eq_true _⟩

/-- A pass that starts is due on a unit that there is. -/
theorem duePassStart_unit {u : Nat} {d : Dev} (h : duePassStart u d = true) : u < d.video.psc.length := by
  simp only [duePassStart, Bool.and_eq_true, beq_iff_eq] at h
  obtain ⟨⟨-, hu⟩, -⟩ := h
  exact (List.findIdx?_eq_some_iff_getElem.mp hu).1

theorem Dev.pass_passTaken (d : Dev) (u : Nat) (x : Pass) :
    (d.passTaken u x).video.passes.find? (·.seq == x.seq) =
      (d.video.passes.find? (·.seq == x.seq)).map (Pass.begun u d.run (d.passParams x) (d.passNorm x)) :=
  d.pass_modPass_same x.seq fun _ => rfl

/-- The buffers of a pass freed, where it has both. -/
def Dev.freePassBufs (d : Dev) (x : Pass) : Dev :=
  match x.inBuf, x.outBuf with
  | some i, some o => (d.freeBuf (inputDepot (d.passPart x)) i).freeBuf (outputDepot (d.passPart x)) o
  | _, _ => d

theorem Dev.onlyDepots_freePassBufs (d : Dev) (x : Pass) : d.OnlyDepots (d.freePassBufs x) := by
  unfold Dev.freePassBufs
  split
  · exact (d.onlyDepots_freeBuf _ _).trans (Dev.onlyDepots_freeBuf _ _ _)
  · exact .refl d

/-- The device with a pass gone that did not run, counted, and its outcome owed (R127, R137). -/
def Dev.passRefused (d : Dev) (x : Pass) : Dev :=
  { (d.modVideo fun v => { v with passes := v.passes.filter fun y => y.seq != x.seq }).modFn (d.passFn x) fun y =>
      { y with preCnt := bump 1 1 y.preCnt } with
    trk := { d.trk with
      results := d.trk.results ++ [bareResult (d.passFn x) x.route x.slot x.stream x.serial [0x26]] } }

theorem Dev.refusePass_eq (d : Dev) (x : Pass) : d.refusePass x = ((d.freePassBufs x).passRefused x).passReads x := rfl

/-- A refused pass goes, its unit stays free, and its picture owes PARAMS_INVALID on its route (R127). -/
theorem Dev.refusePass_spec (d : Dev) (x : Pass) :
    (∀ y ∈ (d.refusePass x).video.passes, y.seq ≠ x.seq) ∧ (d.refusePass x).video.psc = d.video.psc ∧
      ∃ f, (d.refusePass x).trk.results =
        d.trk.results ++ [bareResult f x.route x.slot x.stream x.serial [0x26]] := by
  obtain ⟨hv, -, ht⟩ := (d.onlyDepots_freePassBufs x).fields
  obtain ⟨hpasses, hpsc, htrk, -⟩ := (((d.freePassBufs x).passRefused x).onlyPool_passReads x).fields
  rw [Dev.refusePass_eq, hpasses, hpsc, htrk, ← hv, ← ht]
  exact ⟨fun y hy => by simpa using (List.mem_filter.mp hy).2, rfl, _, rfl⟩

theorem pscPassStart_starts {u : Nat} {x : Pass} {s : State} (hdue : duePassStart u s.dev = true)
    (hx : s.dev.firstPass = some x) (hv : s.dev.passValid x = true) : Completes (.pscPassStart u) s fun d =>
      ((d.video.passes.find? (·.seq == x.seq)).map fun y => (y.unit, y.startTick, y.params)) =
        some (some u, s.dev.run, s.dev.passParams x) ∧
      (∀ y, d.video.passes.find? (·.seq == x.seq) = some y → x.inBuf = none → y.inBuf.isSome = true ∧ y.outBuf.isSome = true) ∧
      (d.video.psc[u]?).bind (·.pass) = some x.seq ∧ (∀ o, o ≠ u → d.video.psc[o]? = s.dev.video.psc[o]?) ∧
      d.trk = s.dev.trk := by
  obtain ⟨e, he⟩ := Dev.firstPass_granted hx hv
  have hg := Dev.grantPass_granted he
  obtain ⟨y, hy⟩ := Option.isSome_iff_exists.mp (hg.found.trans (Dev.firstPass_found hx))
  have hexec : exec (.pscPassStart u) s = .next (s.withDev (e.passTaken u x)) :=
    (whenDue_due hdue s fun d => d.passStart u).trans (by rw [Dev.passStart_takes u hx hv he])
  have hfind := e.pass_passTaken u x
  rw [hy] at hfind
  have hpsc : (e.passTaken u x).video.psc = modAt (PscUnit.taking x) u s.dev.video.psc :=
    congrArg (modAt (PscUnit.taking x) u) hg.psc
  refine ⟨_, hexec, ?_, fun z hz hn => ?_, ?_, fun o ho => ?_, hg.trk⟩
  · rw [hfind, ← hg.run, ← Dev.passParams_congr hg.streams hg.routes]
    rfl
  · obtain rfl := Option.some.inj (hfind.symm.trans hz)
    exact hg.bufs y hy hn
  · rw [hpsc, modAt_same, List.getElem?_eq_getElem (duePassStart_unit hdue)]
    rfl
  · rw [hpsc, modAt_ne _ _ _ _ (Ne.symm ho)]

theorem pscPassStart_refuses {u : Nat} {x : Pass} {s : State} (hdue : duePassStart u s.dev = true)
    (hx : s.dev.firstPass = some x) (hv : s.dev.passValid x = false) : Completes (.pscPassStart u) s fun d =>
      (∀ y ∈ d.video.passes, y.seq ≠ x.seq) ∧ d.video.psc = s.dev.video.psc ∧
      ∃ r, d.trk.results = s.dev.trk.results ++ [r] ∧ r.route = x.route ∧ r.slot = x.slot ∧ r.stream = x.stream ∧
        r.serial = x.serial ∧ r.codes = [0x26] ∧ r.job = none := by
  obtain ⟨hgone, hpsc, f, hres⟩ := s.dev.refusePass_spec x
  exact ⟨s.dev.refusePass x, (whenDue_due hdue s fun d => d.passStart u).trans (by rw [Dev.passStart_refuses u hx hv]),
    hgone, hpsc, _, hres, rfl, rfl, rfl, rfl, rfl, rfl⟩

/-! ### A pass ends (R131, R133, R384) -/

/-- A tensor goes to memory alone. -/
theorem Dev.makeTensor_keeps (d : Dev) (x : Pass) (q : PicSrc) :
    (d.makeTensor x q).2.video = d.video ∧ (d.makeTensor x q).2.parts = d.parts := by
  unfold Dev.makeTensor
  dsimp only
  split
  · simp
  · exact ⟨rfl, rfl⟩

/-! ### Partitions by number, and the jobs they list (R358, R384) -/

theorem Dev.part_id {d : Dev} {p : Nat} {x : Part} (hx : d.part? p = some x) : x.id = p := by
  have h : (x.defined && x.id == p) = true := List.find?_some (p := fun x : Part => x.defined && x.id == p) hx
  simpa using (Bool.and_eq_true_iff.mp h).2

theorem Dev.part_congr {d e : Dev} (h : e.parts = d.parts) (p : Nat) : e.part? p = d.part? p := by
  simp only [Dev.part?, h]

theorem Dev.part_modPart_same (d : Dev) {p : Nat} {g : Part → Part} (hg : ∀ x, (g x).id = x.id ∧ (g x).defined = x.defined)
    {x : Part} (hx : d.part? p = some x) : (d.modPart p g).part? p = some (g x) := by
  refine (find_modIf (fun x : Part => x.defined && x.id == p) (·.id == p) g (fun x => by rw [(hg x).1, (hg x).2])
    d.parts).trans ?_
  rw [show d.parts.find? (fun x => x.defined && x.id == p) = some x from hx]
  simp [Dev.part_id hx]

/-- The partition with an entry at the tail of its list. -/
def Part.listing (e : JobEntry) (p : Part) : Part := { p with list := p.list ++ [e] }

/-- The partition with its next job number drawn (R358). -/
def Part.numbered (p : Part) : Part := { p with jobSeq := (p.jobSeq + 1) % 2 ^ 29 }

theorem Dev.newJob_of_part {d : Dev} {p : Nat} {x : Part} (hx : d.part? p = some x) :
    d.newJob p = (p * 2 ^ 29 + x.jobSeq, d.modPart p Part.numbered) := by
  simp only [Dev.newJob, hx]
  rfl

/-- The device with a pass gone from its unit. -/
def Dev.passOff (d : Dev) (u : Nat) (x : Pass) : Dev :=
  d.modVideo fun v => { v with
    psc := modAt (fun y => y.freed (passVk x.params)) u v.psc
    passes := v.passes.filter fun y => y.seq != x.seq }

theorem Dev.psc_passOff_same (d : Dev) (u : Nat) (x : Pass) :
    (d.passOff u x).video.psc[u]? = d.video.psc[u]?.map fun y => y.freed (passVk x.params) :=
  modAt_same _ _ _

/-- The tensor that a pass makes of a picture, with its input digest (R328). -/
def Pass.tensor (x : Pass) (p : Pic) (i o : Nat) (dig : Nat × Nat) : TensorRef :=
  { route := x.route, stream := x.stream, serial := x.serial, picture := p.number.getD 0, inBuf := i, outBuf := o,
    slot := x.slot, status := condMask p.conditions, digSum := dig.1, digXor := dig.2, params := x.params }

/-- The job of a pass, by its number (R133, R384). -/
def Dev.passJob (d : Dev) (x : Pass) (f n : Nat) (t : TensorRef) : JobEntry :=
  { id := n, part := d.passPart x, fn := f, src := .route x.route [t], mf := at_ (d.routeDesc x.route) 0x20 8,
    inBufs := [t.inBuf], outBufs := [t.outBuf], digests := [] }

/-- A job joins a partition's list, under the partition's next number. -/
def Dev.listJob (d : Dev) (part : Nat) (job : Nat → JobEntry) : Dev :=
  (d.newJob part).2.modPart part (Part.listing (job (d.newJob part).1))

theorem Dev.part_listJob {d : Dev} {part : Nat} (job : Nat → JobEntry) {x : Part} (hx : d.part? part = some x) :
    (d.listJob part job).part? part = some (x.numbered.listing (job (part * 2 ^ 29 + x.jobSeq))) := by
  unfold Dev.listJob
  rw [Dev.newJob_of_part hx]
  exact Dev.part_modPart_same _ (g := Part.listing _) (fun _ => ⟨rfl, rfl⟩)
    (d.part_modPart_same (g := Part.numbered) (fun _ => ⟨rfl, rfl⟩) hx)

/-- The device with the job of a pass listed, and counted for its function (R137). -/
def Dev.passListed (d : Dev) (part f : Nat) (job : Nat → JobEntry) : Dev :=
  (d.listJob part job).modFn f fun y => { y with preCnt := bump 0 1 y.preCnt }

section Commit
variable {d : Dev} {u i o : Nat} {x : Pass} {st : Stream} {p : Pic} {q : PicSrc}

/-- A pass whose picture stands leaves its unit, writes its tensor and lists its job. -/
theorem Dev.passCommit_eq (hx : d.onUnit u = some x) (hst : d.stream? x.stream = some st)
    (hp : d.pic? x.stream x.serial = some p) (hi : x.inBuf = some i) (ho : x.outBuf = some o)
    (hq : d.picSrc st p = some q) : d.passCommit u =
      (((d.passOff u x).makeTensor x q).2.passListed (d.passPart x) st.fn fun n =>
        d.passJob x st.fn n (x.tensor p i o ((d.passOff u x).makeTensor x q).1)).passReads x := by
  have hst' : (d.passOff u x).stream? x.stream = some st := hst
  have hp' : (d.passOff u x).pic? x.stream x.serial = some p := hp
  have hq' : (d.passOff u x).picSrc st p = some q := hq
  unfold Dev.passOff at hst' hp' hq'
  simp only [Dev.passCommit, hx, hst', hp', hi, ho, hq']
  rfl

theorem Dev.onUnit_psc (hx : d.onUnit u = some x) : ∃ y, d.video.psc[u]? = some y := by
  unfold Dev.onUnit at hx
  cases hy : d.video.psc[u]? with
  | none => simp [hy] at hx
  | some y => exact ⟨y, rfl⟩

end Commit

theorem pscPassCommit_lists {u i o : Nat} {x : Pass} {st : Stream} {p : Pic} {pt : Part} {s : State}
    (hdue : duePassCommit u s.dev = true) (hx : s.dev.onUnit u = some x) (hst : s.dev.stream? x.stream = some st)
    (hp : s.dev.pic? x.stream x.serial = some p) (hi : x.inBuf = some i) (ho : x.outBuf = some o)
    (hq : (s.dev.picSrc st p).isSome = true) (hpt : s.dev.part? (s.dev.passPart x) = some pt) :
    Completes (.pscPassCommit u) s fun d =>
      (d.video.psc[u]?).map (·.pass) = some none ∧ (∀ y ∈ d.video.passes, y.seq ≠ x.seq) ∧
      ∃ (e : JobEntry) (t : TensorRef), (d.part? pt.id).map (fun q => (q.list, q.jobSeq)) =
          some (pt.list ++ [e], (pt.jobSeq + 1) % 2 ^ 29) ∧
        e.id = pt.id * 2 ^ 29 + pt.jobSeq ∧ e.src = .route x.route [t] ∧ e.fn = st.fn ∧ e.inBufs = [i] ∧ e.outBufs = [o] ∧
        t.route = x.route ∧ t.stream = x.stream ∧ t.serial = x.serial ∧ t.picture = p.number.getD 0 ∧ t.inBuf = i ∧ t.outBuf = o := by
  obtain ⟨q, hq⟩ := Option.isSome_iff_exists.mp hq
  obtain ⟨y, hy⟩ := Dev.onUnit_psc hx
  have hexec : exec (.pscPassCommit u) s = .next (s.withDev (s.dev.passCommit u)) :=
    whenDue_due hdue s fun d => d.passCommit u
  rw [Dev.passCommit_eq hx hst hp hi ho hq] at hexec
  obtain ⟨hvideo, hmade⟩ := (s.dev.passOff u x).makeTensor_keeps x q
  -- of the tensor, its reference and the listed device, only the fields named here matter from now on
  generalize (s.dev.passOff u x).makeTensor x q = t at hexec hvideo hmade
  generalize htensor : x.tensor p i o t.1 = ref at hexec
  generalize hlist : t.2.passListed (s.dev.passPart x) st.fn (fun n => s.dev.passJob x st.fn n ref) = e at hexec
  obtain ⟨hpasses, hpsc, -, hparts⟩ := (e.onlyPool_passReads x).fields
  have hlisted : e.video = (s.dev.passOff u x).video := hlist ▸ hvideo
  have hpart : e.part? (s.dev.passPart x) =
      some (pt.numbered.listing (s.dev.passJob x st.fn (s.dev.passPart x * 2 ^ 29 + pt.jobSeq) ref)) :=
    hlist ▸ t.2.part_listJob (fun n => s.dev.passJob x st.fn n ref) ((Dev.part_congr hmade _).trans hpt)
  subst htensor
  rw [hlisted] at hpasses hpsc
  refine ⟨_, hexec, ?_, fun z hz => ?_, s.dev.passJob x st.fn (pt.id * 2 ^ 29 + pt.jobSeq) _, x.tensor p i o t.1, ?_,
    rfl, rfl, rfl, rfl, rfl, rfl, rfl, rfl, rfl, rfl, rfl⟩
  · rw [hpsc, Dev.psc_passOff_same, hy]
    rfl
  · rw [hpasses] at hz
    simpa using (List.mem_filter.mp hz).2
  · rw [Dev.part_congr hparts, Dev.part_id hpt, hpart]
    rfl

theorem passesMakeTensorsAndJobs : Claims.PassesMakeTensorsAndJobs :=
  ⟨fun _ _ _ _ hdue hx => ⟨pscPassStart_starts hdue hx, pscPassStart_refuses hdue hx⟩,
    fun _ _ _ _ _ _ _ _ _ hdue hx hst hp hi ho hq hpt => pscPassCommit_lists hdue hx hst hp hi ho hq hpt⟩

/-- Settles O56: a route command that its register takes is the device's own `routeBind` or `routeUnbind`, whose checks are
cases; a pass that starts is granted or refused; and one that ends leaves its unit, writes its tensor and lists its job. -/
theorem routesAndPassesMakeJobs : Obligations.RoutesAndPassesMakeJobs :=
  ⟨routeCommandsAnswerByState, passesMakeTensorsAndJobs⟩

end Sys2Proof.Machine
end

section
/-! SUPPORT. What the cells of the array and the pooling write: byte spans of a memory, ACM words, and the frames of a pass and
of a pooled position (R145, R149, R153, R171, R228). -/

namespace Sys2Proof.Machine

open Sys2Proof

/-! ### Bytes of a memory -/

theorem le_length : ∀ n v, (le n v).length = n
  | 0, _ => rfl
  | n + 1, v => congrArg (· + 1) (le_length n (v / 256))

theorem memBytes_length (m : Mem) : ∀ a n, (memBytes m a n).length = n
  | _, 0 => rfl
  | a, n + 1 => congrArg (· + 1) (memBytes_length m (a + 1) n)

theorem memBytes_congr {m m' : Mem} :
    ∀ {a n : Nat}, (∀ i, a ≤ i → i < a + n → memRead m' i = memRead m i) → memBytes m' a n = memBytes m a n
  | _, 0, _ => rfl
  | a, n + 1, h => by
    simp only [memBytes]
    rw [h a (Nat.le_refl a) (by omega), memBytes_congr fun i hlo hhi => h i (by omega) (by omega)]

theorem memBytes_getElem (m : Mem) :
    ∀ {a n i : Nat} (h : i < (memBytes m a n).length), (memBytes m a n)[i] = memRead m (a + i)
  | _, _ + 1, 0, _ => rfl
  | a, n + 1, i + 1, h => by
    have := memBytes_getElem m (a := a + 1) (n := n) (i := i) (Nat.lt_of_succ_lt_succ h)
    simpa only [memBytes, List.getElem_cons_succ, Nat.add_assoc, Nat.add_comm 1 i] using this

/-- The bytes written to a memory are those read back. -/
theorem memBytes_memWriteBytes_same {m : Mem} (a : Nat) (bs : List Byte) (h : memWf m = true) :
    memBytes (memWriteBytes m a bs) a bs.length = bs :=
  List.ext_getElem (memBytes_length _ _ _) fun i hi hb => by
    rw [memBytes_getElem, memRead_memWriteBytes_inside bs a i h hb]

/-! ### Memories that differ in byte spans alone -/

/-- From `m` to `m'` the canonical form is kept, and no byte outside the spans has changed. -/
def OnlyIn (spans : List (Nat × Nat)) (m m' : Mem) : Prop :=
  memWf m = true → memWf m' = true ∧ ∀ a, Outside spans a → memRead m' a = memRead m a

theorem OnlyIn.refl (spans : List (Nat × Nat)) (m : Mem) : OnlyIn spans m m := fun h => ⟨h, fun _ _ => rfl⟩

theorem OnlyIn.trans {spans : List (Nat × Nat)} {m m' m'' : Mem} (h : OnlyIn spans m m') (h' : OnlyIn spans m' m'') :
    OnlyIn spans m m'' := fun hm =>
  have ⟨hwf, hread⟩ := h hm
  have ⟨hwf', hread'⟩ := h' hwf
  ⟨hwf', fun a ha => (hread' a ha).trans (hread a ha)⟩

theorem memWriteBytes_onlyIn {spans : List (Nat × Nat)} (m : Mem) {a : Nat} {bs : List Byte} {s : Nat × Nat}
    (hs : s ∈ spans) (hlo : s.1 ≤ a) (hhi : a + bs.length ≤ s.2) : OnlyIn spans m (memWriteBytes m a bs) := fun hm =>
  ⟨memWriteBytes_wf bs a hm, fun b hb => memRead_memWriteBytes_outside bs a hm (by
    have := hb s hs
    omega)⟩

/-- Element bits written to a memory lie in the bytes that hold them (R168). -/
theorem memWriteBits_onlyIn {spans : List (Nat × Nat)} (m : Mem) {a n : Nat} (v : Nat) {s : Nat × Nat}
    (hs : s ∈ spans) (hlo : 8 * s.1 ≤ a) (hhi : a + n ≤ 8 * s.2) : OnlyIn spans m (memWriteBits m a n v) :=
  memWriteBytes_onlyIn m hs (by omega) (by rw [le_length]; omega)

/-! ### ACM words -/

/-- The bytes of a span of ACM lines (R153). -/
def lineBytes (l : Nat × Nat) : Nat × Nat := (256 * l.1, 256 * l.2)

/-- Outside the spans of lines every ACM word is kept. -/
theorem acmWord_onlyIn {spans : List (Nat × Nat)} {m m' : CoreMem} (h : OnlyIn (spans.map lineBytes) m.acm m'.acm)
    (hm : memWf m.acm = true) {line col : Nat} (hcol : col < 64) (hline : Outside spans line) :
    acmWord m' line col = acmWord m line col :=
  congrArg ofLe (memBytes_congr fun i hlo hhi => (h hm).2 i fun q hq => by
    obtain ⟨l, hl, rfl⟩ := List.mem_map.mp hq
    have := hline l hl
    simp only [lineBytes]
    omega)

theorem acmWord_acmSet_same {m : CoreMem} (hm : memWf m.acm = true) (line col v : Nat) :
    acmWord (acmSet m line col v) line col = v % 2 ^ 32 := by
  have := memBytes_memWriteBytes_same (line * 256 + col * 4) (le 4 v) hm
  rw [le_length] at this
  simp only [acmWord, acmSet, memNat, this, ofLe_le, Nat.reducePow]

theorem acmWord_acmSet_ne {m : CoreMem} (hm : memWf m.acm = true) {line col l k : Nat} (v : Nat) (hcol : col < 64)
    (hk : k < 64) (hne : (l, k) ≠ (line, col)) : acmWord (acmSet m line col v) l k = acmWord m l k :=
  congrArg ofLe (memBytes_congr fun i hlo hhi => memRead_memWriteBytes_outside _ _ hm (by
    have : l ≠ line ∨ k ≠ col := by
      by_cases hl : l = line
      · exact .inr fun hc => hne (by rw [hl, hc])
      · exact .inl hl
    rw [le_length]
    omega))

/-! ### Cells (R171, R177) -/

theorem CoreMem.raise_zero (m : CoreMem) : m.raise 0 = m := by simp [CoreMem.raise]

/-- The integer that an element of an integer format holds. -/
def FV.cellInt : FV → Int
  | .fin g v _ => sInt g v
  | _ => 0

/-- The sum of the products of two integer formats. -/
def cellSum (ps : List (FV × FV)) : Int := ps.foldl (fun n p => n + p.1.cellInt * p.2.cellInt) 0

/-- What a cell of two integer formats comes to, over the word `old` where it accumulates (R177). -/
def cellTotal (acc : Bool) (old : Nat) (ps : List (FV × FV)) : Int :=
  if acc then clampI (-2147483648) 2147483647 (sext 32 old + cellSum ps) else cellSum ps

theorem wrapInt_mod (w : Nat) (i : Int) : wrapInt w i % 2 ^ w = wrapInt w i := by
  have hpos : (0 : Int) < ((2 ^ w : Nat) : Int) := by exact_mod_cast Nat.two_pow_pos w
  have hlt := Int.emod_lt_of_pos i hpos
  have hnn := Int.emod_nonneg i (Int.ne_of_gt hpos)
  refine Nat.mod_eq_of_lt ?_
  unfold wrapInt
  omega

/-- A cell of two integer formats sets its word to its total (R171, R177). -/
theorem cellWrite_int {sf wf : Nat} (hs : fmtIsInt sf = true) (hw : fmtIsInt wf = true) (line col : Nat) (acc : Bool)
    (ps : List (FV × FV)) (m : CoreMem) : ∃ fl, cellWrite sf wf line col acc ps m =
      (acmSet m line col (wrapInt 32 (cellTotal acc (acmWord m line col) ps))).raise fl := by
  unfold cellWrite
  rw [if_pos (by rw [hs, hw]; rfl)]
  cases acc with
  | true => exact ⟨_, rfl⟩
  | false => exact ⟨0, (CoreMem.raise_zero _).symm⟩

/-- A cell writes one ACM word and raises flags. -/
theorem cellWrite_sets (sf wf line col : Nat) (acc : Bool) (ps : List (FV × FV)) (m : CoreMem) :
    ∃ v fl, cellWrite sf wf line col acc ps m = (acmSet m line col v).raise fl := by
  by_cases hint : (fmtIsInt sf && fmtIsInt wf) = true
  · obtain ⟨hs, hw⟩ := Bool.and_eq_true_iff.mp hint
    exact ⟨_, cellWrite_int hs hw line col acc ps m⟩
  · unfold cellWrite
    rw [if_neg hint]
    cases acc <;> exact ⟨_, _, rfl⟩

/-! ### Passes (R145, R149) -/

/-- From `m` to `m'` scratchpad, digest entry and window flags are kept, and the ACM outside the spans of lines. -/
structure CoreMem.OnlyLines (spans : List (Nat × Nat)) (m m' : CoreMem) : Prop where
  csp : m'.csp = m.csp
  dig : m'.dig = m.dig
  win : m'.win = m.win
  acm : OnlyIn (spans.map lineBytes) m.acm m'.acm

/-- Loads of operand banks, counts and flags reach none of it. -/
theorem CoreMem.OnlyLines.of_eq {m m' : CoreMem} (spans : List (Nat × Nat)) (hcsp : m'.csp = m.csp) (hdig : m'.dig = m.dig)
    (hwin : m'.win = m.win) (hacm : m'.acm = m.acm) : m.OnlyLines spans m' :=
  ⟨hcsp, hdig, hwin, hacm ▸ .refl _ _⟩

theorem CoreMem.OnlyLines.refl (spans : List (Nat × Nat)) (m : CoreMem) : m.OnlyLines spans m :=
  .of_eq spans rfl rfl rfl rfl

theorem CoreMem.OnlyLines.trans {spans : List (Nat × Nat)} {m m' m'' : CoreMem} (h : m.OnlyLines spans m')
    (h' : m'.OnlyLines spans m'') : m.OnlyLines spans m'' :=
  ⟨h'.csp.trans h.csp, h'.dig.trans h.dig, h'.win.trans h.win, h.acm.trans h'.acm⟩

/-- Steps that each keep to the lines keep to them together. -/
theorem CoreMem.OnlyLines.foldl {α : Type} {spans : List (Nat × Nat)} {f : CoreMem → α → CoreMem} {l : List α}
    (hf : ∀ a ∈ l, ∀ m : CoreMem, m.OnlyLines spans (f m a)) (m : CoreMem) : m.OnlyLines spans (l.foldl f m) :=
  List.foldlRecOn l f (.refl spans m) fun m' hm a ha => hm.trans (hf a ha m')

theorem cellWrite_onlyLines {spans : List (Nat × Nat)} {s : Nat × Nat} (hs : s ∈ spans) (sf wf : Nat) {line col : Nat}
    (hlo : s.1 ≤ line) (hhi : line < s.2) (hcol : col < 64) (acc : Bool) (ps : List (FV × FV)) (m : CoreMem) :
    m.OnlyLines spans (cellWrite sf wf line col acc ps m) := by
  obtain ⟨v, fl, heq⟩ := cellWrite_sets sf wf line col acc ps m
  rw [heq]
  refine ⟨rfl, rfl, rfl, memWriteBytes_onlyIn m.acm (List.mem_map_of_mem hs) ?_ ?_⟩
  · simp only [lineBytes]
    omega
  · simp only [lineBytes, le_length]
    omega

/-- The spans of lines a plan writes. -/
def ArrPlan.lineSpans (p : ArrPlan) : List (Nat × Nat) := p.lines.map fun l => (l.1, l.1 + 32 * p.tp)

theorem rowStep_onlyLines (p : ArrPlan) {k t r : Nat} (hk : k < p.lines.length) (ht : t < p.tp) (hr : r < 32)
    (m : CoreMem) : m.OnlyLines p.lineSpans (rowStep p k t r m) := by
  have hspan : (p.lines[k].1, p.lines[k].1 + 32 * p.tp) ∈ p.lineSpans := List.mem_map_of_mem (List.getElem_mem hk)
  have hline : (p.lines[k]?).getD (0, false) = p.lines[k] := by rw [List.getElem?_eq_getElem hk, Option.getD_some]
  unfold rowStep
  simp only [hline]
  have hcount : m.OnlyLines p.lineSpans { m with steps := modAt (· + 1) r m.steps } := .of_eq _ rfl rfl rfl rfl
  refine hcount.trans (.foldl (fun col hcol m' => ?_) _)
  split
  · exact .refl _ _
  · exact cellWrite_onlyLines hspan _ _ (by omega) (by dsimp only; omega)
      (List.mem_range.mp hcol) _ _ m'

theorem tack_onlyLines (spans : List (Nat × Nat)) (m : CoreMem) : m.OnlyLines spans (tack m) := .of_eq spans rfl rfl rfl rfl

theorem loadShadow_onlyLines (spans : List (Nat × Nat)) (p : ArrPlan) (k : Nat) (m : CoreMem) :
    m.OnlyLines spans (loadShadow p k m) := .of_eq spans rfl rfl rfl rfl

theorem runPass_onlyLines (p : ArrPlan) {k : Nat} (hk : k < p.lines.length) (m : CoreMem) :
    m.OnlyLines p.lineSpans (runPass p k m) := by
  have hload : m.OnlyLines p.lineSpans (if k == 0 && p.preload then m else loadShadow p k m) := by
    split
    · exact .refl _ _
    · exact loadShadow_onlyLines _ p k m
  refine (hload.trans (tack_onlyLines _ _)).trans (.foldl (fun x hx m' => ?_) _)
  have hx : x < 32 * p.tp := List.mem_range.mp hx
  split
  · exact rowStep_onlyLines p hk (by omega) (by omega) m'
  · exact .refl _ _

theorem ArrPlan.run_onlyLines (p : ArrPlan) (hlen : p.lines.length = p.nk) (m : CoreMem) :
    m.OnlyLines p.lineSpans (p.run m) := by
  unfold ArrPlan.run
  split
  · exact .refl _ _
  · exact .foldl (fun k hk m' => runPass_onlyLines p (hlen ▸ List.mem_range.mp hk) m') m

/-! ### Pooling (R228) -/

/-- From `m` to `m'` ACM and operand banks are kept, and the scratchpad outside the byte spans. -/
structure CoreMem.OnlySpans (spans : List (Nat × Nat)) (m m' : CoreMem) : Prop where
  acm : m'.acm = m.acm
  shadow : m'.shadow = m.shadow
  active : m'.active = m.active
  csp : OnlyIn spans m.csp m'.csp

theorem CoreMem.OnlySpans.refl (spans : List (Nat × Nat)) (m : CoreMem) : m.OnlySpans spans m :=
  ⟨rfl, rfl, rfl, .refl _ _⟩

theorem CoreMem.OnlySpans.trans {spans : List (Nat × Nat)} {m m' m'' : CoreMem} (h : m.OnlySpans spans m')
    (h' : m'.OnlySpans spans m'') : m.OnlySpans spans m'' :=
  ⟨h'.acm.trans h.acm, h'.shadow.trans h.shadow, h'.active.trans h.active, h.csp.trans h'.csp⟩

/-- Element writes that each lie in one of the spans reach nothing else of the scratchpad. -/
theorem applyWrites_onlySpans {spans : List (Nat × Nat)} {ws : List EWrite}
    (hws : ∀ w ∈ ws, ∃ s ∈ spans, 8 * s.1 ≤ w.bit ∧ w.bit + w.n ≤ 8 * s.2) (lr : Nat) (m : CoreMem) :
    m.OnlySpans spans (applyWrites lr ws m) :=
  ⟨rfl, rfl, rfl, List.foldlRecOn ws _ (.refl spans m.csp) fun m' hm w hw =>
    have ⟨_, hs, hlo, hhi⟩ := hws w hw
    hm.trans (memWriteBits_onlyIn m' w.v hs hlo hhi)⟩

/-- Element `j` of row `i` of a view lies in the row's span. -/
theorem viewSpans_element {base pitch rows n eb i j : Nat} (hi : i < rows) (hj : j < n) :
    ∃ s ∈ viewSpans base pitch rows n eb,
      8 * s.1 ≤ 8 * (base + i * pitch) + j * eb ∧ 8 * (base + i * pitch) + j * eb + eb ≤ 8 * s.2 := by
  refine ⟨(base + i * pitch, base + i * pitch + ceilDiv (n * eb) 8), ?_, by omega, ?_⟩
  · unfold viewSpans
    rw [if_neg (by omega)]
    exact List.mem_map.mpr ⟨i, List.mem_range.mpr hi, rfl⟩
  · have hend : (j + 1) * eb ≤ n * eb := Nat.mul_le_mul_right eb hj
    rw [Nat.add_mul, Nat.one_mul] at hend
    simp only [ceilDiv, Nat.reduceEqDiff, if_false]
    omega

theorem plxRun_onlySpans (v : Win) (fmt lr : Nat) (hn : v.npos.1 ≤ v.npos.2) (m : CoreMem) :
    m.OnlySpans (plxWrites v fmt) (plxRun v fmt lr m) := by
  unfold plxRun
  dsimp only
  split
  · exact ⟨rfl, rfl, rfl, .refl _ _⟩
  · refine List.foldlRecOn _ _ (.refl _ m) fun m' hm p hp => hm.trans ?_
    have hp : p < v.npos.2 := Nat.lt_of_lt_of_le (List.mem_range.mp hp) hn
    split
    · exact .refl _ _
    · refine (applyWrites_onlySpans (fun w hw => ?_) lr m').trans ⟨rfl, rfl, rfl, .refl _ _⟩
      simp only [List.map_map, List.mem_map] at hw
      obtain ⟨j, hj, rfl⟩ := hw
      exact viewSpans_element hp (List.mem_range.mp hj)

/-! ### The claim -/

theorem arrayPlansWriteOnlyTheirLines : Claims.ArrayPlansWriteOnlyTheirLines := by
  refine ⟨fun p m hlen hm => ?_, fun sf wf line col acc ps m hs hw hcol hm => ?_, fun v f lr m hm hn => ?_, fun _ _ => rfl⟩
  · have h := p.run_onlyLines hlen m
    exact ⟨h.csp, h.dig, h.win, fun line col hcol hline => acmWord_onlyIn h.acm hm hcol hline⟩
  · obtain ⟨fl, heq⟩ := cellWrite_int hs hw line col acc ps m
    rw [heq]
    exact ⟨(acmWord_acmSet_same hm line col _).trans (wrapInt_mod 32 _),
      fun l k hk hne => acmWord_acmSet_ne hm _ hcol hk hne⟩
  · have h := plxRun_onlySpans v f lr hn m
    exact ⟨h.acm, h.shadow, h.active, (h.csp hm).2⟩

end Sys2Proof.Machine
end

section
/-! SUPPORT. The data path of a core after an array row (R221, R226, R228, R254, R257): the instruction's own effect on the memory
its core holds when it issues. -/

namespace Sys2Proof.Machine

open Sys2Proof

theorem Dev.mem_core_modCore (d : Dev) (c v : Nat) {g : Core → Core} (hg : ∀ k, (g k).mem = k.mem) :
    ((d.modCore c g).core v).mem = (d.core v).mem := by
  rw [Dev.core_modCore]
  split
  · exact hg _
  · rfl

/-- Booking an issue leaves the data path of every core. -/
theorem Dev.book_mem (d : Dev) (s : Seat) (c t plan start cause : Nat) (vxe : Bool) (cls : Nat) (pre : Option (Nat × Nat))
    (v : Nat) : ((d.book s c t plan start cause vxe cls pre).core v).mem = (d.core v).mem := by
  have hcores := d.slipRec_keeps Dev.cores (fun _ _ _ => rfl) (fun _ _ _ _ => rfl) s.x c cause (s.x.localCk start)
    (t - plan) s.k.run.ip
  unfold Dev.book
  refine (Dev.mem_core_modCore _ c v ?_).trans ?_
  · exact fun _ => rfl
  split
  · refine (Dev.mem_core_modCore _ c v ?_).trans ?_
    · exact fun _ => rfl
    simp only [Dev.core, hcores]
  · rfl

/-! ### Array rows -/

/-- A plan with no pass does nothing (R224). -/
theorem ArrPlan.run_of_empty {p : ArrPlan} (h : p.empty = true) (m : CoreMem) : p.run m = m := by
  simp only [ArrPlan.empty, Bool.or_eq_true, beq_iff_eq] at h
  unfold ArrPlan.run
  rcases h with h | h
  · rw [if_pos h]
  · simp [h, upTo]

/-- An array instruction runs its run-time plan on its core's data path; it has no pass where the planned one has none. -/
theorem Dev.arrayIssue_mem (d : Dev) (s : Seat) {c : Nat} (t : Nat) {q p : ArrPlan} (win : Bool) (hc : c < d.cores.length)
    (hqp : q.empty = p.empty) : ((d.arrayIssue s c t q p win).core c).mem = p.run (d.core c).mem := by
  unfold Dev.arrayIssue
  split
  · rename_i hq
    rw [ArrPlan.run_of_empty (hqp ▸ hq)]
  · dsimp only
    split
    all_goals
      simp only [Dev.core, Dev.modCtx_cores]
      exact congrArg Core.mem (d.core_modCore_same c _ hc)

/-- The passes and steps of an MXM follow from the planned lengths (R252, R254). -/
theorem mxmPlan_empty (w : Nat) (pre : Option (Nat × Nat)) (m n k : Len) :
    (mxmPlan w pre (m.2, m.2) (n.2, n.2) (k.2, k.2)).empty = (mxmPlan w pre m n k).empty := rfl

/-- So do those of a CNV or DWC (R224, R252). -/
theorem winPlan_empty (w : Nat) (dwc : Bool) (v : Win) (pre : Option (Nat × Nat)) (n : Len) (b b' : Bool) :
    (winPlan w dwc v pre (n.2, n.2) b).empty = (winPlan w dwc v pre n b').empty := rfl

/-- A window whose output size is not positive sets WIN_EMPTY (R218). -/
def Win.flagged (v : Win) (m : CoreMem) : CoreMem :=
  if sizePos (v.outSize v.ih.1 v.iw.1) then m else { m with win := m.win ||| 1 }

theorem Dev.winIssue_mem (d : Dev) (s : Seat) {c : Nat} (t w : Nat) (dwc : Bool) {v : Win} {n : Len × Option Nat}
    (hc : c < d.cores.length) (hv : s.win w = some v) (hn : winN s.k.run t w dwc = some n) :
    ((d.winIssue s c t w dwc).core c).mem =
      (winPlan w dwc v s.k.run.scalePre n.1 false).run (v.flagged (d.core c).mem) := by
  unfold Dev.winIssue
  simp only [hv, hn]
  rw [Dev.arrayIssue_mem _ s t true (by simpa [modAt_length] using hc) (winPlan_empty w dwc v _ n.1 true false),
    Dev.core_modCore_same d c _ hc]
  rfl

end Sys2Proof.Machine

namespace Sys2Proof
open Machine

/-- A row that issues completes, and its core's data path is what the row's effect makes of the one the core issued with. -/
theorem Issuing.completes_mem {st : State} {row : TileOp} {c : Nat} {s : Seat} {w t plan : Nat}
    (h : Issuing st.dev row c s w t plan) {name : String} {ecc : Ecc} (hecc : ecc.uncorrectable = false)
    {eff : Dev → Seat → Nat → Nat → Dev} {g : CoreMem → CoreMem}
    (hg : ∀ d : Dev, c < d.cores.length → ((eff d (s.counted ecc.corrected) w t).core c).mem = g (d.core c).mem) :
    ∃ d : Dev, tileRow name row c ecc eff st = .next (st.withDev d) ∧ (d.core c).mem = g s.k.mem := by
  obtain ⟨start, cause, vxe, heq⟩ := h.completes name ecc hecc eff
  refine ⟨_, heq, ?_⟩
  obtain ⟨-, hlen, hk⟩ := h.ctx
  have hcounted : (((Reached st.dev c t).counted c ecc.corrected).core c).mem = s.k.mem := by
    rw [Dev.counted, Dev.core_modCore_same _ _ _ hlen, hk]
  rw [hg, Dev.book_mem, hcounted]
  rw [(Dev.book_keeps _ _ _ _ _ _ _ _ _ _).2.2.1]
  simpa [Dev.counted, modAt_length] using hlen

theorem arrayRowsRunTheirPlan : Claims.ArrayRowsRunTheirPlan := by
  intro c ecc st s w t plan hecc issues empty
  refine ⟨fun m n k h hl => ?_, fun v n h hv hn => ?_, fun v n h hv hn => ?_, fun v h hv => ?_, fun h => ?_⟩
  · refine h.completes_mem hecc (g := (mxmPlan w s.k.run.scalePre m.1 n.1 k.1).run) fun d hc => ?_
    have hl : mxmLens (s.counted ecc.corrected).k.run t w = some (m, n, k) := hl
    simp only [hl]
    exact d.arrayIssue_mem _ t false hc (mxmPlan_empty w _ m.1 n.1 k.1)
  · refine h.completes_mem hecc (g := fun m => (winPlan w false v s.k.run.scalePre n.1 false).run (v.flagged m)) fun d hc => ?_
    exact d.winIssue_mem (s.counted ecc.corrected) t w false hc hv hn
  · refine h.completes_mem hecc (g := fun m => (winPlan w true v s.k.run.scalePre n.1 false).run (v.flagged m)) fun d hc => ?_
    exact d.winIssue_mem (s.counted ecc.corrected) t w true hc hv hn
  · refine h.completes_mem hecc (g := fun m => plxRun v (bits w 24 4) (s.k.run.digLr t m.dig) m) fun d hc => ?_
    have hv : (s.counted ecc.corrected).win w = some v := hv
    simp only [hv]
    exact congrArg Core.mem (d.core_modCore_same c _ hc)
  · exact h.completes_mem hecc fun d hc => congrArg Core.mem (d.core_modCore_same c _ hc)

/-- Settles O42: each row's effect on the booked issue runs its plan on the core's data path, and a plan's passes are cells
that each write one word of their lines. -/
theorem arrayRowsComputeTheirPlan : Obligations.ArrayRowsComputeTheirPlan :=
  ⟨arrayRowsRunTheirPlan, arrayPlansWriteOnlyTheirLines⟩

end Sys2Proof
end

section
/-! SUPPORT. The float dot product as a function of its products, and its independence of their order (R172 to R175). -/

namespace Sys2Proof.Machine

/-! ### The window (R172) -/

/-- One step of the window sum: a product joins the sum over 2^lo, and the bits it loses below join sticky. -/
def windowAdd (lo : Int) (a : Int × Int × Bool) (p : Bool × Nat × Int) : Int × Int × Bool :=
  if lo ≤ p.2.2 then (a.1 + sInt p.1 (p.2.1 <<< (p.2.2 - lo).toNat), a.2)
  else (a.1 + sInt p.1 (p.2.1 >>> (lo - p.2.2).toNat), a.2.1, a.2.2 || p.2.1 % 2 ^ (lo - p.2.2).toNat != 0)

/-- The window's lowest bit lies 112 below the leading bit of the largest product. -/
def windowLow (nz : List (Bool × Nat × Int)) : Int :=
  nz.foldl (fun a p => max a (log2Floor p.2.1 p.2.2)) (-100000) - 112

theorem windowSum_eq_foldl (ps : List (Bool × Nat × Int)) :
    windowSum ps = (ps.filter fun p => p.2.1 != 0).foldl (windowAdd (windowLow (ps.filter fun p => p.2.1 != 0)))
      (0, windowLow (ps.filter fun p => p.2.1 != 0), false) := rfl

theorem windowAdd_right_comm (lo : Int) (a : Int × Int × Bool) (p q : Bool × Nat × Int) :
    windowAdd lo (windowAdd lo a p) q = windowAdd lo (windowAdd lo a q) p := by
  unfold windowAdd
  by_cases hp : lo ≤ p.2.2 <;> by_cases hq : lo ≤ q.2.2 <;>
    simp only [hp, hq, if_true, if_false, Int.add_right_comm, Bool.or_right_comm]

theorem windowLow_perm {ps qs : List (Bool × Nat × Int)} (h : ps.Perm qs) : windowLow ps = windowLow qs := by
  unfold windowLow
  rw [h.foldl_eq' fun _ _ _ _ _ => by omega]

theorem windowSum_perm {ps qs : List (Bool × Nat × Int)} (h : ps.Perm qs) : windowSum ps = windowSum qs := by
  rw [windowSum_eq_foldl, windowSum_eq_foldl, windowLow_perm (h.filter _)]
  exact (h.filter _).foldl_eq' (fun p _ q _ a => windowAdd_right_comm _ a p q) _

/-! ### Products (R172, R174) -/

theorem fMulX_eq_nan (a b : FV) : fMulX a b = .nan ↔
    (a.isNan || b.isNan) = true ∨ ((a.isInf && b.isZero) || (a.isZero && b.isInf)) = true := by
  cases a <;> cases b <;> simp [fMulX, FV.isNan, FV.isInf, FV.isZero]

theorem fMulX_eq_inf {a b : FV} (s : Bool) (hnan : fMulX a b ≠ .nan) :
    fMulX a b = .inf s ↔ (a.isInf || b.isInf) = true ∧ (a.neg != b.neg) = s := by
  cases a <;> cases b <;> revert hnan <;> simp +contextual [fMulX, FV.isInf, FV.isZero, FV.neg]

/-- The exact products of the enabled pairs. -/
def products (ps : List (FV × FV)) : List FV := ps.map fun p => fMulX p.1 p.2

theorem mem_products {ps : List (FV × FV)} {x : FV} : x ∈ products ps ↔ ∃ p ∈ ps, fMulX p.1 p.2 = x := List.mem_map

/-- Sign, significand and exponent of a finite product. -/
def FV.finParts : FV → Bool × Nat × Int
  | .fin s m e => (s, m, e)
  | _ => (false, 0, 0)

/-- The sum of finite products: through the window, rounded once to FP32 (R172, R173). -/
def dotOfFinite (xs : List (Bool × Nat × Int)) : FV :=
  if (windowSum xs).1 = 0 then fZero (!xs.isEmpty && xs.all fun p => p.2.1 == 0 && p.1)
  else fRnd fp32 (windowSum xs).2.2 (ofSInt (windowSum xs).1 (windowSum xs).2.1 false)

theorem dotOfFinite_perm {xs ys : List (Bool × Nat × Int)} (h : xs.Perm ys) : dotOfFinite xs = dotOfFinite ys := by
  unfold dotOfFinite
  rw [windowSum_perm h, h.isEmpty_eq, h.all_eq]

/-- The float dot product of its products, special ones first (R172 to R174). -/
def dotOfProducts (xs : List FV) : FV :=
  if .nan ∈ xs ∨ (.inf false ∈ xs ∧ .inf true ∈ xs) then .nan
  else if .inf false ∈ xs ∨ .inf true ∈ xs then .inf (decide (.inf true ∈ xs))
  else dotOfFinite (xs.map FV.finParts)

theorem dotOfProducts_perm {xs ys : List FV} (h : xs.Perm ys) : dotOfProducts xs = dotOfProducts ys := by
  simp only [dotOfProducts, h.mem_iff, dotOfFinite_perm (h.map _)]

/-! ### The dot product of pairs -/

/-- A product is NaN where an element is NaN or an infinity meets a zero (R174). -/
theorem nan_mem_products (ps : List (FV × FV)) : .nan ∈ products ps ↔
    (ps.any fun p => p.1.isNan || p.2.isNan) = true ∨
    ((ps.filter fun p => !(p.1.isNan || p.2.isNan)).any fun p =>
      (p.1.isInf && p.2.isZero) || (p.1.isZero && p.2.isInf)) = true := by
  simp only [mem_products, fMulX_eq_nan, List.any_filter, List.any_eq_true, ← exists_or, ← and_or_left]
  refine exists_congr fun p => and_congr_right fun _ => ?_
  cases p.1.isNan || p.2.isNan <;> simp

/-- Where no product is NaN, the infinite products of a sign are those whose operands' signs give it (R174). -/
theorem inf_mem_products {ps : List (FV × FV)} (hnan : .nan ∉ products ps) (s : Bool) {sign : FV × FV → Bool}
    (hsign : ∀ p, sign p = true ↔ (p.1.neg != p.2.neg) = s) :
    (((ps.filter fun p => !(p.1.isNan || p.2.isNan)).filter fun p => p.1.isInf || p.2.isInf).any sign) =
      decide (.inf s ∈ products ps) := by
  rw [Bool.eq_iff_iff, decide_eq_true_iff, mem_products, List.any_eq_true]
  refine exists_congr fun p => ?_
  rw [List.mem_filter, List.mem_filter, and_assoc, and_assoc]
  refine and_congr_right fun hp => ?_
  have hmul : fMulX p.1 p.2 ≠ .nan := fun h => hnan (mem_products.mpr ⟨p, hp, h⟩)
  have hgood : (p.1.isNan || p.2.isNan) = false :=
    Bool.eq_false_iff.mpr fun h => hmul ((fMulX_eq_nan _ _).mpr (.inl h))
  rw [fMulX_eq_inf s hmul, hsign, hgood]
  exact and_iff_right rfl

/-- The dot product of pairs is that of their products (R172 to R175). -/
theorem dotFloat_fst (ps : List (FV × FV)) : (dotFloat ps).1 = dotOfProducts (products ps) := by
  unfold dotFloat
  by_cases hnan : .nan ∈ products ps
  · have hval : dotOfProducts (products ps) = .nan := if_pos (.inl hnan)
    rw [hval]
    rcases (nan_mem_products ps).mp hnan with h | h <;> simp only [h, Bool.true_or, Bool.or_true, if_true]
  · obtain ⟨hnanIn, hzi⟩ := not_or.mp (mt (nan_mem_products ps).mpr hnan)
    have hfin : (products ps).map FV.finParts = ps.map fun p => (fMulX p.1 p.2).finParts := List.map_map
    simp only [inf_mem_products hnan false (sign := fun p => p.1.neg == p.2.neg) (by simp),
      inf_mem_products hnan true (sign := fun p => p.1.neg != p.2.neg) (by simp), hnanIn, hzi, hnan, hfin,
      apply_ite Prod.fst, dotOfProducts, Bool.false_or, false_or, Bool.and_eq_true, Bool.or_eq_true, decide_eq_true_iff]
    rfl

/-- Pairs in another order give the same result and the same flags (R175). -/
theorem dotFloat_perm {ps qs : List (FV × FV)} (h : ps.Perm qs) : dotFloat ps = dotFloat qs := by
  unfold dotFloat
  simp only [h.any_eq, (h.filter _).any_eq, ((h.filter _).filter _).any_eq, windowSum_perm (h.map _),
    (h.map _).isEmpty_eq, (h.map _).all_eq]

/-- On either path a cell's write, flags included, is that of its pairs in any order (R171, R175). -/
theorem cellWrite_perm (sf wf line col : Nat) (acc : Bool) {ps qs : List (FV × FV)} (h : ps.Perm qs) (m : CoreMem) :
    cellWrite sf wf line col acc ps m = cellWrite sf wf line col acc qs m := by
  unfold cellWrite
  dsimp only
  rw [dotFloat_perm h, h.foldl_eq' fun _ _ _ _ _ => Int.add_right_comm _ _ _]

/-- Settles O58: the result is a function of the list of products that no permutation of it changes; a cell adds its
pairs on either path in sums that commute. -/
theorem dotProductsDependOnTheMultiset : Obligations.DotProductsDependOnTheMultiset := by
  refine ⟨fun ps qs h => ?_, fun sf wf line col acc ps qs m h => cellWrite_perm sf wf line col acc h m⟩
  rw [dotFloat_fst, dotFloat_fst]
  exact dotOfProducts_perm h

end Sys2Proof.Machine
end

section
/-! SUPPORT. The booked issue of a control row: what its own effect finds on the device (R246), the length registers after a SETLEN
(R190, R264), and what the closing of digest entries leaves (R271, R326, R327). -/

namespace Sys2Proof.Machine

open Sys2Proof

/-! ### The booked issue -/

theorem Dev.book_run (d : Dev) (s : Seat) {c : Nat} (t plan start cause : Nat) (vxe : Bool) (cls : Nat)
    (pre : Option (Nat × Nat)) (hc : c < d.cores.length) :
    ((d.book s c t plan start cause vxe cls pre).core c).run = (d.core c).run.issued t (t - plan) cls pre := by
  have hcores := d.slipRec_keeps Dev.cores (fun _ _ _ => rfl) (fun _ _ _ _ => rfl) s.x c cause (s.x.localCk start)
    (t - plan) s.k.run.ip
  unfold Dev.book
  dsimp only
  split
  · rw [Dev.core_modCore_same _ c _ (by simpa [modAt_length, hcores] using hc),
      Dev.core_modCore_same _ c _ (by simpa [hcores] using hc)]
    simp only [Dev.core, hcores, Core.stalled]
  · rw [Dev.core_modCore_same _ c _ hc]

/-- An issue in its planned ck writes no slip record: memory and partitions stay. -/
theorem Dev.book_onTime (d : Dev) (s : Seat) (c t start cause : Nat) (vxe : Bool) (cls : Nat) (pre : Option (Nat × Nat)) :
    (d.book s c t t start cause vxe cls pre).mem = d.mem ∧ (d.book s c t t start cause vxe cls pre).parts = d.parts := by
  simp [Dev.book]

/-- `b` is what an instruction's own effect finds: core `c`'s issue in ck `t`, planned for ck `plan`, is booked on the device
`e` of that ck, where the core's seat is `s`. -/
structure Dev.Booked (e : Dev) (s : Seat) (c t plan : Nat) (b : Dev) : Prop where
  core_lt : c < b.cores.length
  ctx : b.ctx? s.x.entry.id = some s.x
  mem : (b.core c).mem = s.k.mem
  run : ∃ cls pre, (b.core c).run = s.k.run.issued t (t - plan) cls pre
  onTime : plan = t → b.mem = e.mem ∧ b.part? s.x.entry.part = some s.p

end Sys2Proof.Machine

namespace Sys2Proof
open Machine

/-- A row that reads no operand data, where it issues, completes with what holds after its effect on the booked issue. -/
theorem Issuing.completes_booked {st : State} {row : TileOp} {c : Nat} {s : Seat} {w t plan : Nat}
    (h : Issuing st.dev row c s w t plan) {name : String} {eff : Dev → Seat → Nat → Nat → Dev} {P : Dev → Prop}
    (hP : ∀ b, (Reached st.dev c t).Booked s c t plan b → P (eff b (s.counted 0) w t)) :
    ∃ d : Dev, tileRow name row c Ecc.none eff st = .next (st.withDev d) ∧ P d := by
  obtain ⟨start, cause, vxe, heq⟩ := h.completes name Ecc.none rfl eff
  obtain ⟨hctx, hlen, hk⟩ := h.ctx
  have hclen : c < ((Reached st.dev c t).counted c 0).cores.length := by simpa [Dev.counted, modAt_length] using hlen
  have hcore : ((Reached st.dev c t).counted c 0).core c = (s.counted 0).k := by
    rw [Dev.counted, Dev.core_modCore_same _ _ _ hlen, ← hk]
    rfl
  generalize (if row = TileOp.prefix_ then some (bits w 24 20, bits w 44 20) else none) = pre at heq
  obtain ⟨hctxs, -, hcores, -⟩ := Dev.book_keeps ((Reached st.dev c t).counted c 0) (s.counted 0) c t plan start cause vxe
    row.cls pre
  refine ⟨_, heq, hP (((Reached st.dev c t).counted c 0).book (s.counted 0) c t plan start cause vxe row.cls pre) ?_⟩
  exact {
    core_lt := hcores.symm ▸ hclen
    ctx := by rw [Dev.ctx?, hctxs]; exact hctx
    mem := (Dev.book_mem _ _ _ _ _ _ _ _ _ _ _).trans (by rw [hcore]; rfl)
    run := ⟨row.cls, pre, (Dev.book_run _ _ _ _ _ _ _ _ _ hclen).trans (by rw [hcore]; rfl)⟩
    onTime := by
      rintro rfl
      obtain ⟨hmem, hparts⟩ := Dev.book_onTime ((Reached st.dev c plan).counted c 0) (s.counted 0) c plan start cause vxe
        row.cls pre
      exact ⟨hmem, (Dev.part_congr hparts _).trans (Dev.seat_eq_some.mp h.seat).2.1⟩ }

end Sys2Proof

namespace Sys2Proof.Machine

/-! ### SETLEN (R190, R246, R264) -/

theorem bits_lt (n lo w : Nat) : bits n lo w < 2 ^ w := Nat.mod_lt _ (Nat.two_pow_pos w)

/-- In the ck a register is set it still reads as before. -/
theorem LReg.set_at_issue (l : LReg) (t v p r : Nat) : (l.set t v p r).at t = l.at t := by
  simp [LReg.at, LReg.set]

/-- A core's issue state with length register `reg` set: 0 is VL, 1 is VR, 8 to 15 are the others. -/
def CoreRun.setLen (r : CoreRun) (reg t v p : Nat) : CoreRun :=
  match reg with
  | 0 => { r with vl := r.vl.set t v p 0 }
  | 1 => { r with vr := r.vr.set t v p 0 }
  | n => { r with lrs := modAt (fun l => l.set t v p 0) (n - 8) r.lrs }

theorem CoreRun.setLen_lrs (r : CoreRun) {reg : Nat} (hreg : 8 ≤ reg) (t v p : Nat) :
    r.setLen reg t v p = { r with lrs := modAt (fun l => l.set t v p 0) (reg - 8) r.lrs } := by
  unfold CoreRun.setLen
  split
  · omega
  · omega
  · rfl

/-- The register that SETLEN names reads as set from the next ck on, and the others are left. -/
theorem CoreRun.setLen_spec (r : CoreRun) {reg : Nat} (hreg : reg < 16) (t v p : Nat) :
    let r' := r.setLen reg t v p
    let set := fun (l l0 : LReg) => l.at (t + 1) = (v, p) ∧ l.at t = l0.at t
    (reg = 0 → set r'.vl r.vl ∧ r'.vr = r.vr ∧ r'.lrs = r.lrs) ∧
    (reg = 1 → set r'.vr r.vr ∧ r'.vl = r.vl ∧ r'.lrs = r.lrs) ∧
    (8 ≤ reg → r.lrs.length = 8 → set (r'.lr (reg - 8)) (r.lr (reg - 8)) ∧ r'.vl = r.vl ∧ r'.vr = r.vr ∧
      ∀ n, n ≠ reg - 8 → r'.lr n = r.lr n) := by
  have hset : ∀ l : LReg, (l.set t v p 0).at (t + 1) = (v, p) ∧ (l.set t v p 0).at t = l.at t :=
    fun l => ⟨l.set_at t v p 0, l.set_at_issue t v p 0⟩
  refine ⟨?_, ?_, fun h8 hlen => ?_⟩
  · rintro rfl
    exact ⟨hset r.vl, rfl, rfl⟩
  · rintro rfl
    exact ⟨hset r.vr, rfl, rfl⟩
  · have hlr := fun n => r.lr_modAt (reg - 8) n (fun l => l.set t v p 0) (by omega)
    rw [CoreRun.setLen_lrs _ h8]
    refine ⟨?_, rfl, rfl, fun n hn => (hlr n).trans (if_neg hn)⟩
    rw [hlr, if_pos rfl]
    exact hset _

/-- A SETLEN that issues sets its register on its core's booked issue. -/
theorem setlen_run {c : Nat} {st : State} {s : Seat} {w t plan : Nat} (h : Issuing st.dev .setlen c s w t plan) :
    Completes (.setlen c) st fun d => ∃ cls pre, (d.core c).run =
      (s.k.run.issued t (t - plan) cls pre).setLen (bits w 32 4) t (setlenVal w s.x.shapes) (bits w 40 17) := by
  refine h.completes_booked fun b hb => ?_
  obtain ⟨cls, pre, hrun⟩ := hb.run
  refine ⟨cls, pre, ?_⟩
  rw [b.core_modCore_same c _ hb.core_lt, hrun]
  rfl

theorem setlenSetsItsRegister : Claims.SetlenSetsItsRegister := by
  intro c st s w t plan h
  obtain ⟨d, heq, cls, pre, hrun⟩ := setlen_run h
  have hspec := CoreRun.setLen_spec (s.k.run.issued t (t - plan) cls pre) (bits_lt w 32 4) t (setlenVal w s.x.shapes)
    (bits w 40 17)
  rw [← hrun] at hspec
  exact ⟨d, heq, hspec⟩

/-! ### Digest records (R327) -/

/-- A digest record reaches nothing that a change of a partition and a write to HBM leave. -/
theorem Dev.digestRec_keeps {α : Type} (view : Dev → α) (hpart : ∀ d p g, view (Dev.modPart d p g) = view d)
    (hwrite : ∀ d o a bs, view (Dev.ownerWrite d o a bs) = view d) (d : Dev) (x : Ctx)
    (slot entry layer dsum dxor count : Nat) (mismatch : Bool) :
    view (d.digestRec x slot entry layer dsum dxor count mismatch) = view d := by
  unfold Dev.digestRec
  repeat' split
  · rfl
  · rfl
  · rfl
  · dsimp only
    rw [hpart, hwrite]

theorem Dev.digestRec_cores (d : Dev) (x : Ctx) (slot entry layer dsum dxor count : Nat) (mismatch : Bool) :
    (d.digestRec x slot entry layer dsum dxor count mismatch).cores = d.cores :=
  d.digestRec_keeps Dev.cores (fun _ _ _ => rfl) (fun _ _ _ _ => rfl) x slot entry layer dsum dxor count mismatch

section Logged
variable {d : Dev} {x : Ctx} {p : Part} (hp : d.part? x.entry.part = some p)
include hp

/-- Without DIGEST_LOG nothing is written. -/
theorem Dev.digestRec_unlogged (hlog : bitAt p.dauCtl 0 = false) (slot entry layer dsum dxor count : Nat)
    (mismatch : Bool) : d.digestRec x slot entry layer dsum dxor count mismatch = d := by
  simp [Dev.digestRec, hp, hlog]

/-- With DIGEST_LOG the record is written to its place in the ring. -/
theorem Dev.digestRec_mem (hlog : bitAt p.dauCtl 0 = true) {a : Nat}
    (ha : ringSlot p.dgRing 4 20 32 p.granted p.dgNext = some a) (slot entry layer dsum dxor count : Nat)
    (mismatch : Bool) : (d.digestRec x slot entry layer dsum dxor count mismatch).mem =
      (d.ownerWrite p.id a (le 4 x.entry.id ++ le 2 entry ++ le 2 layer ++ le 8 dsum ++ le 8 dxor ++
        le 4 (min count (2 ^ 32 - 1)) ++ le 1 slot ++ le 1 (x.attempt + 4 * b2n mismatch) ++ zeros 2)).mem := by
  simp [Dev.digestRec, hp, hlog, ha]

end Logged

theorem Dev.ownerWrite_mem_congr {d e : Dev} (h : e.mem = d.mem) (o a : Nat) (bs : List Byte) :
    (e.ownerWrite o a bs).mem = (d.ownerWrite o a bs).mem := by
  simp only [Dev.ownerWrite, Dev.pcs, h]

/-! ### The broken contract (R59) -/

/-- CONTRACT_VIOLATION of a job, where it has a context. -/
def Dev.violated (d : Dev) (j : Nat) : Option Bool := (d.ctx? j).map (·.violation)

theorem Dev.violated_violate (d : Dev) (j : Nat) : (d.violate j).violated j = (d.violated j).map fun _ => true := by
  unfold Dev.violated Dev.violate
  rw [Dev.ctx_modCtx_same d j (fun x => { x with violation := true }) fun _ => rfl, Option.map_map, Option.map_map]
  rfl

theorem Dev.violated_digestRec (d : Dev) (x : Ctx) (slot entry layer dsum dxor count : Nat) (mismatch : Bool) (j : Nat) :
    (d.digestRec x slot entry layer dsum dxor count mismatch).violated j = d.violated j :=
  d.digestRec_keeps (·.violated j) (fun _ _ _ => rfl) (fun _ _ _ _ => rfl) x slot entry layer dsum dxor count mismatch

/-! ### A closed point -/

/-- A digest point closed on the core of seat `s`: its record, and the contract broken where it is `bad` (R326, R327). -/
def Dev.closePoint (d : Dev) (s : Seat) (entry layer dsum dxor count : Nat) (bad : Bool) : Dev :=
  let e := d.digestRec s.x s.slot entry layer dsum dxor count bad
  if bad then e.violate s.x.entry.id else e

section ClosePoint
variable (d : Dev) (s : Seat) (entry layer dsum dxor count : Nat) (bad : Bool)

theorem Dev.closePoint_cores : (d.closePoint s entry layer dsum dxor count bad).cores = d.cores := by
  cases bad <;> exact d.digestRec_cores s.x s.slot entry layer dsum dxor count _

theorem Dev.closePoint_mem : (d.closePoint s entry layer dsum dxor count bad).mem =
    (d.digestRec s.x s.slot entry layer dsum dxor count bad).mem := by
  cases bad <;> rfl

variable {d s}

theorem Dev.violated_closePoint {v : Bool} (h : d.violated s.x.entry.id = some v) :
    (d.closePoint s entry layer dsum dxor count bad).violated s.x.entry.id = some (v || bad) := by
  have hrec := (d.violated_digestRec s.x s.slot entry layer dsum dxor count bad s.x.entry.id).trans h
  cases bad with
  | false => rw [Bool.or_false]; exact hrec
  | true =>
    rw [Bool.or_true]
    exact (Dev.violated_violate _ _).trans (congrArg (Option.map fun _ => true) hrec)

end ClosePoint

/-! ### END over open entries (R326) -/

theorem Dev.closeDigests_cores (s : Seat) : ∀ (n : Nat) (g : Option DigOpen) (d : Dev),
    (Dev.closeDigests s n g d).cores = d.cores
  | 0, _, _ => rfl
  | _ + 1, none, _ => rfl
  | n + 1, some g, d => (Dev.closeDigests_cores s n _ _).trans
      (d.closePoint_cores s g.entry g.layer g.dsum g.dxor g.count true)

theorem Dev.closeDigests_keeps_violated (s : Seat) : ∀ (n : Nat) (g : Option DigOpen) {d : Dev},
    d.violated s.x.entry.id = some true → (Dev.closeDigests s n g d).violated s.x.entry.id = some true
  | 0, _, _, h => h
  | _ + 1, none, _, h => h
  | n + 1, some g, _, h => Dev.closeDigests_keeps_violated s n _
      (Dev.violated_closePoint g.entry g.layer g.dsum g.dxor g.count true h)

/-- The contract is broken by an entry still open. -/
theorem Dev.closeDigests_violated (s : Seat) (n : Nat) (g : Option DigOpen) {d : Dev} {v : Bool}
    (h : d.violated s.x.entry.id = some v) :
    (Dev.closeDigests s (n + 1) g d).violated s.x.entry.id = some (v || g.isSome) := by
  cases g with
  | none => exact h.trans (by rw [Option.isSome_none, Bool.or_false])
  | some g =>
    have hpoint := Dev.violated_closePoint g.entry g.layer g.dsum g.dxor g.count true h
    rw [Bool.or_true] at hpoint
    rw [Option.isSome_some, Bool.or_true]
    exact Dev.closeDigests_keeps_violated s n _ hpoint

/-! ### DGP and END (R271, R272) -/

theorem Dev.Booked.violated {e b : Dev} {s : Seat} {c t plan : Nat} (hb : e.Booked s c t plan b) :
    b.violated s.x.entry.id = some s.x.violation := by
  rw [Dev.violated, hb.ctx]
  rfl

/-- The mark of POINT_MISMATCH in a record's byte. -/
theorem four_b2n_bne (a b : Nat) : 4 * b2n (a != b) = if a = b then 0 else 4 := by
  by_cases h : a = b <;> simp [h, b2n]

/-- A point closed on the booked issue leaves its core to the instruction, and breaks the contract where it is `bad`. -/
theorem Dev.Booked.closePoint {e b : Dev} {s : Seat} {c t plan : Nat} (hb : e.Booked s c t plan b)
    (entry layer dsum dxor count : Nat) (bad : Bool) :
    let e' := b.closePoint s entry layer dsum dxor count bad
    c < e'.cores.length ∧ e'.core c = b.core c ∧ e'.violated s.x.entry.id = some (s.x.violation || bad) := by
  have hcores := b.closePoint_cores s entry layer dsum dxor count bad
  exact ⟨hcores ▸ hb.core_lt, by simp only [Dev.core, hcores],
    Dev.violated_closePoint entry layer dsum dxor count bad hb.violated⟩

theorem digestsCloseInOrder : Claims.DigestsCloseInOrder := by
  refine ⟨fun c st s w t plan g h hg => ?_, fun c st s w t plan h hg => ?_, fun c st s w t plan h => ?_⟩
  · refine h.completes_booked fun b hb => ?_
    have hdig : (s.counted 0).k.mem.dig = some g := hg
    simp only [hdig]
    obtain ⟨cls, pre, hrun⟩ := hb.run
    obtain ⟨hlt, hcore, hviol⟩ := hb.closePoint g.entry g.layer g.dsum g.dxor g.count (bits w 24 12 != g.entry)
    have hmem := b.closePoint_mem s g.entry g.layer g.dsum g.dxor g.count (bits w 24 12 != g.entry)
    have hafter := Dev.core_modCore_same _ c (fun k => { k with
      mem := { k.mem with dig := s.x.mf.nextDig s.slot g.entry }
      run := { k.run with nextEntry := k.run.nextEntry + 1 } }) hlt
    rw [hcore] at hafter
    refine ⟨congrArg (·.mem.dig) hafter, (congrArg (·.run.nextEntry) hafter).trans (by simp only [hrun]; rfl), hviol,
      fun hlog hplan => ?_, fun a hlog hplan ha => ?_⟩
    · obtain ⟨hbmem, hp⟩ := hb.onTime hplan
      rw [Dev.digestRec_unlogged hp hlog] at hmem
      exact hmem.trans hbmem
    · obtain ⟨hbmem, hp⟩ := hb.onTime hplan
      rw [Dev.digestRec_mem hp hlog ha, four_b2n_bne, Dev.ownerWrite_mem_congr hbmem] at hmem
      exact hmem
  · refine h.completes_booked fun b hb => ?_
    have hdig : (s.counted 0).k.mem.dig = none := hg
    simp only [hdig]
    obtain ⟨-, hcore, hviol⟩ := hb.closePoint (bits w 24 12)
      (((s.x.mf.digs[bits w 24 12]?).map fun g => g.2.layer).getD 0) 0 0 0 true
    rw [Bool.or_true] at hviol
    exact ⟨(congrArg (·.mem.dig) hcore).trans ((congrArg (·.dig) hb.mem).trans hg), hviol⟩
  · refine h.completes_booked fun b hb => ?_
    have hcores := Dev.closeDigests_cores (s.counted 0) (s.x.mf.digs.length + 1) s.k.mem.dig b
    have hafter := Dev.core_modCore_same _ c (fun k => { k with
      mem := { k.mem with dig := none }, run := { k.run with ended := some t } }) (hcores ▸ hb.core_lt)
    exact ⟨congrArg (·.mem.dig) hafter, congrArg (·.run.ended) hafter,
      Dev.closeDigests_violated (s.counted 0) _ s.k.mem.dig hb.violated⟩

/-- Settles O44: on the booked issue SETLEN sets its register for the next ck, and a digest point closes with its record, in
order or with the contract broken. -/
theorem setlenAndDigestPoints : Obligations.SetlenAndDigestPoints :=
  ⟨setlenSetsItsRegister, digestsCloseInOrder⟩

end Sys2Proof.Machine
end

section
/-! SUPPORT. A reduction with NR_BITMAP set: an undefined encoding (R199), whose destination spans are a bitmap's and whose result
is an element. -/

namespace Sys2Proof.Machine

open Sys2Proof

/-- A VRD MAX with NR_BITMAP set, its destination at byte 0 in INT8. -/
def bitmapMax : VecOp := vecOfWord 0x2000046 (zeros 64)

/-- Over one row of no planned column its spans, a bitmap's, are empty. -/
theorem bitmapMax_writes : bitmapMax.writes 0 1 = [] := by decide

/-- Its result on that row, the least INT8 (R204), is written all the same. -/
theorem bitmapMax_run_byte : memRead (bitmapMax.run 0 0 1 0 1 CoreMem.zero).csp 0 = 0x80#8 := by decide

/-- Refutes O43: its second clause speaks of every `VecOp`, undefined encodings among them. A VRD MAX with NR_BITMAP set, which
R199 leaves undefined and which so never issues (R248), has the spans of a bitmap; over a row of no column they are empty, and
it writes 0x80 to byte 0, which held 0. -/
theorem not_vectorRowsWriteTheirDestination : ¬ Obligations.VectorRowsWriteTheirDestination := by
  rintro ⟨-, hwrites⟩
  obtain ⟨-, -, -, -, -, hkeeps⟩ := hwrites bitmapMax 0 0 1 0 1 CoreMem.zero (Nat.le_refl 0) (Nat.le_refl 1) rfl
  have houtside : Outside (bitmapMax.writes 0 1) 0 := by
    rw [bitmapMax_writes]
    exact nofun
  have hbyte : (0x80#8 : Byte) = memRead CoreMem.zero.csp 0 := bitmapMax_run_byte.symm.trans (hkeeps 0 houtside)
  exact absurd hbyte (by decide)

end Sys2Proof.Machine
end

section
/-! SUPPORT. The output size of a window and the output positions of its instruction positions (R217, R219). -/

namespace Sys2Proof.Machine

/-- The output extent along one axis (R217): `len` padded input elements, under `taps` taps `dil` apart, taken every `stride`. -/
def windowExtent (len dil taps stride : Nat) : Int :=
  ((len : Int) - (dil * (taps - 1) : Nat) - 1) / (stride : Int) + 1

theorem Win.outSize_eq (v : Win) (ih iw : Nat) : v.outSize ih iw =
    (windowExtent (ih + v.pt + v.pb) v.dh v.kh v.sh, windowExtent (iw + v.pl + v.pr) v.dw v.kw v.sw) := rfl

/-- The extent less one is the greatest integer whose multiple of the stride stays within the last start of a window. -/
theorem le_windowExtent_sub_one_iff {taps stride : Nat} (htaps : 1 ≤ taps) (hstride : 1 ≤ stride) (len dil : Nat) (z : Int) :
    z ≤ windowExtent len dil taps stride - 1 ↔ z * stride ≤ (len : Int) - dil * ((taps : Int) - 1) - 1 := by
  have hpos : (0 : Int) < stride := by exact_mod_cast hstride
  have hfloor : windowExtent len dil taps stride - 1 = ((len : Int) - (dil * (taps - 1) : Nat) - 1) / (stride : Int) :=
    Int.add_sub_cancel _ 1
  rw [hfloor, Int.le_ediv_iff_mul_le hpos, Int.natCast_mul, Int.ofNat_sub htaps, Int.natCast_one]

/-- Of a positive size, a position inside is the quotient and remainder of its number by the output columns. -/
theorem Win.pos_natCast_eq_some_iff (v : Win) {oh ow : Nat} (hoh : 0 < oh) (how : 0 < ow) (npos p oy ox : Nat) :
    v.pos ((oh : Int), (ow : Int)) npos p = some (oy, ox) ↔
      p < npos ∧ v.pos0 + p < oh * ow ∧ oy = (v.pos0 + p) / ow ∧ ox = (v.pos0 + p) % ow := by
  have hsize : sizePos ((oh : Int), (ow : Int)) = true :=
    decide_eq_true ⟨Int.natCast_pos.mpr hoh, Int.natCast_pos.mpr how⟩
  simp only [Win.pos, hsize, true_and, Int.toNat_natCast, Option.ite_none_right_eq_some, Option.some.injEq, Prod.mk.injEq,
    and_assoc, eq_comm (b := oy), eq_comm (b := ox)]

/-- A position of a positive output size is the quotient and remainder by the output columns; an empty size has none. -/
theorem Win.pos_eq_some_iff (v : Win) (size : Int × Int) (npos p oy ox : Nat) :
    v.pos size npos p = some (oy, ox) ↔ p < npos ∧ 0 < size.1 ∧ 0 < size.2 ∧
      ((v.pos0 + p : Nat) : Int) < size.1 * size.2 ∧
      (oy : Int) = (v.pos0 + p : Nat) / size.2 ∧ (ox : Int) = (v.pos0 + p : Nat) % size.2 := by
  obtain ⟨oh, ow⟩ := size
  by_cases hsize : 0 < oh ∧ 0 < ow
  · obtain ⟨hoh, how⟩ := hsize
    obtain ⟨rows, rfl⟩ := Int.eq_ofNat_of_zero_le (Int.le_of_lt hoh)
    obtain ⟨cols, rfl⟩ := Int.eq_ofNat_of_zero_le (Int.le_of_lt how)
    have hinside : ((v.pos0 + p : Nat) : Int) < rows * cols ↔ v.pos0 + p < rows * cols := by norm_cast
    have hrow : (oy : Int) = (v.pos0 + p : Nat) / (cols : Int) ↔ oy = (v.pos0 + p) / cols := by norm_cast
    have hcol : (ox : Int) = (v.pos0 + p : Nat) % (cols : Int) ↔ ox = (v.pos0 + p) % cols := by norm_cast
    rw [v.pos_natCast_eq_some_iff (Int.natCast_pos.mp hoh) (Int.natCast_pos.mp how)]
    simp only [hinside, hrow, hcol, hoh, how, true_and]
  · have hnone : v.pos (oh, ow) npos p = none := if_neg fun h => hsize (of_decide_eq_true h.1)
    rw [hnone]
    exact iff_of_false nofun fun ⟨_, hoh, how, _⟩ => hsize ⟨hoh, how⟩

/-- Settles O59: each axis is a floored quotient by its stride, and a position is its number's quotient and remainder by OW. -/
theorem windowsHaveTheirOutputSize : Obligations.WindowsHaveTheirOutputSize := by
  intro v ih iw hsh hsw hkh hkw size
  have hsize : size = _ := v.outSize_eq ih iw
  refine ⟨fun z => ?_, fun z => ?_, fun npos p => v.pos_eq_some_iff size npos p⟩
  · rw [hsize]
    exact_mod_cast le_windowExtent_sub_one_iff hkh hsh (ih + v.pt + v.pb) v.dh z
  · rw [hsize]
    exact_mod_cast le_windowExtent_sub_one_iff hkw hsw (iw + v.pl + v.pr) v.dw z

end Sys2Proof.Machine
end

section
/-! SUPPORT. Host writes of waymarks (R267, R283). -/

namespace Sys2Proof.Machine

open Sys2Proof

/-- A signal at a page that serves its function is that function's write of the waymark (R283). -/
theorem exec_waymarkSignal (f w a : Nat) (s : State) (h : s.dev.serves f .rest = true) :
    exec (.waymarkSignal f w a) s = .next (s.withDev (s.dev.wakeLink.wmHost f w fun c => c + a % 2 ^ 32)) :=
  congrArg (fun d => Host.Outcome.next (s.withDev d)) (Dev.access_serves s.dev f .rest _ h)

/-- Waking the contexts that a gate lets on changes contexts alone (R359). -/
theorem Dev.wakeBlocked_eq (d : Dev) (p : Nat) : d.wakeBlocked p = { d with ctxs := (d.wakeBlocked p).ctxs } := by
  unfold Dev.wakeBlocked
  cases d.part? p <;> rfl

/-- The write of a waymark outside the function's partitions, or private to a job, is ignored (R283). -/
theorem Dev.wmHost_ignored (d : Dev) (f w : Nat) (g : Nat → Nat)
    (h : (f == 0 || (d.wmPart w).any (·.owner == f)) = false ∨ d.wmPrivate w = true) : d.wmHost f w g = d := by
  rcases h with h | h <;> simp [Dev.wmHost, h]

/-- One that is not ignored gives the waymark its new COUNT, and reaches besides it only contexts (R283, R359). -/
theorem Dev.wmHost_taken (d : Dev) (f w : Nat) (g : Nat → Nat)
    (hown : (f == 0 || (d.wmPart w).any (·.owner == f)) = true) (hpriv : d.wmPrivate w = false) :
    let e := d.wmHost f w g
    e.wmkAt w = { d.wmkAt w with count := g (d.wmkAt w).count % 2 ^ 32 } ∧ (∀ v, v ≠ w → e.wmkAt v = d.wmkAt v) ∧
      e = { d with wmk := e.wmk, ctxs := e.ctxs } := by
  intro e
  let m : Waymark := { d.wmkAt w with count := g (d.wmkAt w).count % 2 ^ 32 }
  have hix : m.ix = w := d.wmkAt_ix w
  have he : e = { d.putWmk m with ctxs := e.ctxs } := by
    simp only [e, Dev.wmHost, hown, hpriv, Bool.not_true, Bool.false_or, Bool.false_eq_true, if_false]
    split
    · exact Dev.wakeBlocked_eq _ _
    · rfl
  have hwm : ∀ v, e.wmkAt v = (d.putWmk m).wmkAt v := fun v => congrArg (·.wmkAt v) he
  refine ⟨?_, fun v hv => ?_, ?_⟩
  · rw [hwm, ← hix, Dev.wmkAt_putWmk_same]
    simp only [m, d.wmkAt_ix]
  · rw [hwm, Dev.wmkAt_putWmk_ne _ _ (hix.symm ▸ hv)]
  · rw [congrArg Dev.wmk he]
    exact he

/-- Settles O39: the write is ignored, or puts the waymark's COUNT with the amount added. -/
theorem waymarkSignalsAddToTheirCount : Obligations.WaymarkSignalsAddToTheirCount := by
  intro f w a s _ _ hserves own
  refine ⟨fun hign => ?_, fun hown hpriv => .of_eq (exec_waymarkSignal f w a s hserves) ?_⟩
  · rw [exec_waymarkSignal f w a s hserves, Dev.wmHost_ignored s.dev.wakeLink f w _ hign]
  · obtain ⟨hsame, hother, hframe⟩ := s.dev.wakeLink.wmHost_taken f w (fun c => c + a % 2 ^ 32) hown hpriv
    exact ⟨(congrArg Waymark.count hsame).trans (Nat.add_mod_mod _ _ _), by rw [hsame]; rfl, hother, hframe⟩

end Sys2Proof.Machine
end

section
/-! SUPPORT. What a job's schedule may reach on its way to an issue: a release, the waymark adds that become visible, and the
schedule's progress (R34, R40, R268). -/

namespace Sys2Proof
open Machine

theorem OnlyJobs.refl (d : Dev) : OnlyJobs d d := rfl

theorem OnlyJobs.trans {d e f : Dev} (h : OnlyJobs d e) (h' : OnlyJobs e f) : OnlyJobs d f :=
  Eq.trans h' (congrArg
    (fun x : Dev => { x with cores := f.cores, ctxs := f.ctxs, parts := f.parts, mem := f.mem, wmk := f.wmk }) h)

end Sys2Proof

namespace Sys2Proof.Machine

open Sys2Proof

/-- A release takes the front off its core's queue, and may write HBM and end the residence of a manifest (R40, R43). -/
theorem Dev.release_cases (d : Dev) (x : Ctx) (c : Nat) :
    d.release x c = d ∨ ∃ m ps, d.release x c = { d with mem := m, parts := ps }.modCore c Core.releaseOne := by
  unfold Dev.release
  split
  · exact .inl rfl
  · dsimp only
    split
    · exact .inr ⟨_, _, rfl⟩
    · exact .inr ⟨_, _, rfl⟩

/-- Waymark adds that become visible change waymarks, and contexts that wait for them (R268, R359). -/
theorem Dev.foldAdds_eq (d : Dev) (j ck : Nat) : ∃ ws xs, d.foldAdds j ck = { d with wmk := ws, ctxs := xs } := by
  unfold Dev.foldAdds
  split
  · exact ⟨_, _, rfl⟩
  · rename_i x _
    obtain ⟨ws, hws⟩ : ∃ ws, (x.adds.filter fun a => a.2.2 ≤ ck).foldl (fun (d : Dev) a =>
        d.putWmk { d.wmkAt a.1 with count := ((d.wmkAt a.1).count + a.2.1) % 2 ^ 32 }) d = { d with wmk := ws } :=
      List.foldlRecOn (motive := fun e : Dev => ∃ ws, e = { d with wmk := ws }) _ _ ⟨_, rfl⟩
        fun _ he _ _ => by
          obtain ⟨ws, rfl⟩ := he
          exact ⟨_, rfl⟩
    dsimp only
    rw [hws]
    split
    · exact ⟨_, _, rfl⟩
    · exact ⟨_, _, Dev.wakeBlocked_eq _ _⟩

/-- The schedule's progress is releases, then changes of waymarks and contexts. -/
theorem Dev.advance_eq (d : Dev) (j t : Nat) : d.advance j t = d ∨
    ∃ x ws xs, d.advance j t = { Dev.releases x t (d.queued x) d with wmk := ws, ctxs := xs } := by
  unfold Dev.advance
  split
  · exact .inl rfl
  · rename_i x _
    obtain ⟨ws, xs, hadds⟩ := (Dev.releases x t (d.queued x) d).foldAdds_eq j t
    exact .inr ⟨x, ws, _, congrArg (·.modCtx j fun x => { x with now := t }) hadds⟩

theorem Dev.onlyJobs_releases (x : Ctx) (t : Nat) : ∀ (n : Nat) (d : Dev), OnlyJobs d (Dev.releases x t n d)
  | 0, d => .refl d
  | n + 1, d => by
    unfold Dev.releases
    split
    · rename_i r _
      refine .trans ?_ (Dev.onlyJobs_releases x t n _)
      rcases d.release_cases x r.1 with h | ⟨m, ps, h⟩ <;> rw [h] <;> rfl
    · exact .refl d

theorem Dev.onlyJobs_advance (d : Dev) (j t : Nat) : OnlyJobs d (d.advance j t) := by
  rcases d.advance_eq j t with h | ⟨x, ws, xs, h⟩
  · rw [h]
    exact .refl d
  · rw [h]
    exact (d.onlyJobs_releases x t _).trans rfl

section View
variable {α : Type} {view : Core → α} (hview : ∀ k : Core, view k.releaseOne = view k)
include hview

theorem Dev.releases_view (x : Ctx) (t v : Nat) :
    ∀ (n : Nat) (d : Dev), view ((Dev.releases x t n d).core v) = view (d.core v)
  | 0, _ => rfl
  | n + 1, d => by
    unfold Dev.releases
    split
    · rename_i r _
      refine (Dev.releases_view x t v n _).trans ?_
      rcases d.release_cases x r.1 with h | ⟨m, ps, h⟩
      · rw [h]
      · rw [h, Dev.core_modCore]
        split
        · exact hview _
        · rfl
    · rfl

/-- What taking the front off a core's queue leaves of a core, the schedule's progress leaves (R40). -/
theorem Dev.advance_view (d : Dev) (j t v : Nat) : view ((d.advance j t).core v) = view (d.core v) := by
  rcases d.advance_eq j t with h | ⟨x, ws, xs, h⟩
  · rw [h]
  · rw [h]
    exact Dev.releases_view hview x t v _ d

end View

theorem Dev.advance_now {d : Dev} {j t : Nat} {x : Ctx} (h : (d.advance j t).ctx? j = some x) : x.now = t := by
  unfold Dev.advance at h
  split at h
  · rename_i hnone
    simp [hnone] at h
  · rw [Dev.ctx_modCtx_same _ j (fun x => { x with now := t }) fun _ => rfl] at h
    obtain ⟨y, -, rfl⟩ := Option.map_eq_some_iff.mp h
    rfl

/-- A release leaves where its core's stream stands (R40). -/
theorem Core.releaseOne_standing (k : Core) :
    (k.releaseOne.job, k.releaseOne.run.ended, k.releaseOne.run.gate) = (k.job, k.run.ended, k.run.gate) := by
  unfold Core.releaseOne Core.land
  split
  · rfl
  · dsimp only
    split <;> rfl

end Sys2Proof.Machine

namespace Sys2Proof
open Machine

/-- Where an instruction issues, its core has not ended and stands at no gate (R36, R272), and its job's schedule has reached
the ck. -/
theorem Issuing.standing {d : Dev} {row : TileOp} {c : Nat} {s : Seat} {w t plan : Nat} (h : Issuing d row c s w t plan) :
    s.k.run.ended = none ∧ s.k.run.gate = none ∧ s.x.now = t := by
  obtain ⟨s0, -, -, hs0, -⟩ := h.next
  obtain ⟨-, -, -, hk0⟩ := Dev.seat_eq_some.mp hs0
  obtain ⟨hx, -, -, hk⟩ := Dev.seat_eq_some.mp h.seat
  have hdue := h.due
  simp only [dueTile, hs0, Bool.and_eq_true, Option.isNone_iff_eq_none, hk0] at hdue
  obtain ⟨⟨⟨-, hended⟩, hgate⟩, -⟩ := hdue
  have hview := d.advance_view (view := fun k => (k.job, k.run.ended, k.run.gate)) Core.releaseOne_standing
    (((d.core c).job).getD 0) t c
  rw [hended, hgate, Prod.mk.injEq, Prod.mk.injEq] at hview
  obtain ⟨hjob, hended', hgate'⟩ := hview
  obtain ⟨hj, hctx⟩ := Dev.ctxOf_eq_some hx
  have hid : ((d.core c).job).getD 0 = s.x.entry.id := congrArg (·.getD 0) (hjob.symm.trans hj)
  rw [Reached, hid] at hctx
  exact ⟨hk ▸ hended', hk ▸ hgate', Dev.advance_now hctx⟩

end Sys2Proof
end

section
/-! SUPPORT. The reach of an instruction (R246, R247): the work on one core and its job, and the own effect of each row. -/

namespace Sys2Proof.Machine

open Sys2Proof

/-! ### Work on one core and its job -/

/-- The device without the inference cores, the jobs, their partitions, the waymarks and memory. -/
def Dev.rest (d : Dev) : Dev := { d with cores := [], ctxs := [], parts := [], mem := Memory.reset, wmk := [] }

theorem Dev.onlyJobs_of_rest {d e : Dev} (h : e.rest = d.rest) : OnlyJobs d e := by
  have hback := congrArg
    (fun x : Dev => { x with cores := e.cores, ctxs := e.ctxs, parts := e.parts, mem := e.mem, wmk := e.wmk }) h
  exact hback

/-- Where a core's stream stands: what no instruction's own effect changes. -/
def Core.place (k : Core) : Option Nat × Nat × Nat × Option Nat × Nat × Option (Nat × Nat) × Option (Nat × Nat) :=
  (k.job, k.slot, k.run.ip, k.run.last, k.run.slip, k.run.scalePre, k.run.gate)

/-- Where a job stands: what no instruction changes. -/
def Ctx.place (x : Ctx) : JobEntry × Nat × List Nat × CtxSt × Nat := (x.entry, x.now, x.cores, x.st, x.attempt)

/-- From `d` to `e` there is work on core `c` and its job `j` alone: `view` of the core stays, the job stands where it
stood, and where `quiet` HBM and the partitions stay too. -/
structure Dev.Work {α : Type} (view : Core → α) (quiet : Prop) (c j : Nat) (d e : Dev) : Prop where
  core : view (e.core c) = view (d.core c)
  others : ∀ o, o ≠ c → e.core o = d.core o
  job : (e.ctx? j).map Ctx.place = (d.ctx? j).map Ctx.place
  onlyJobs : OnlyJobs d e
  stays : quiet → e.mem = d.mem ∧ e.parts = d.parts

section Work
variable {α β : Type} {view : Core → α} {quiet quiet' : Prop} {c j : Nat} {d e f : Dev}

theorem Dev.Work.refl : Dev.Work view quiet c j d d := ⟨rfl, fun _ _ => rfl, rfl, .refl d, fun _ => ⟨rfl, rfl⟩⟩

theorem Dev.Work.trans (h : Dev.Work view quiet c j d e) (h' : Dev.Work view quiet c j e f) :
    Dev.Work view quiet c j d f where
  core := h'.core.trans h.core
  others o ho := (h'.others o ho).trans (h.others o ho)
  job := h'.job.trans h.job
  onlyJobs := h.onlyJobs.trans h'.onlyJobs
  stays hq := ⟨(h'.stays hq).1.trans (h.stays hq).1, (h'.stays hq).2.trans (h.stays hq).2⟩

/-- A view that another decides stays with it. -/
theorem Dev.Work.mono {view' : Core → β} (h : Dev.Work view quiet c j d e)
    (hview : ∀ k k', view k = view k' → view' k = view' k') (hquiet : quiet' → quiet) :
    Dev.Work view' quiet' c j d e :=
  ⟨hview _ _ h.core, h.others, h.job, h.onlyJobs, fun hq => h.stays (hquiet hq)⟩

/-- Work that leaves the cores and the job's place. -/
theorem Dev.Work.of_cores (hcores : e.cores = d.cores) (hjob : (e.ctx? j).map Ctx.place = (d.ctx? j).map Ctx.place)
    (honly : OnlyJobs d e) (hstays : quiet → e.mem = d.mem ∧ e.parts = d.parts) : Dev.Work view quiet c j d e :=
  ⟨by simp only [Dev.core, hcores], fun o _ => by simp only [Dev.core, hcores], hjob, honly, hstays⟩

theorem Dev.Work.modCore {g : Core → Core} (hg : ∀ k, view (g k) = view k := by exact fun _ => rfl) :
    Dev.Work view quiet c j d (d.modCore c g) where
  core := by
    rw [Dev.core_modCore]
    split
    · exact hg _
    · rfl
  others _ ho := d.core_modCore_ne g (Ne.symm ho)
  job := rfl
  onlyJobs := rfl
  stays _ := ⟨rfl, rfl⟩

theorem Dev.Work.modCtx {g : Ctx → Ctx} (hg : ∀ x, (g x).place = x.place := by exact fun _ => rfl) :
    Dev.Work view quiet c j d (d.modCtx j g) := by
  refine .of_cores rfl ?_ rfl fun _ => ⟨rfl, rfl⟩
  rw [d.ctx_modCtx_same j g fun x => congrArg (·.1.id) (hg x), Option.map_map]
  congr 1
  funext x
  exact hg x

theorem Dev.Work.violate : Dev.Work view quiet c j d (d.violate j) := .modCtx

theorem Dev.Work.putWmk (m : Waymark) : Dev.Work view quiet c j d (d.putWmk m) :=
  .of_cores rfl rfl rfl fun _ => ⟨rfl, rfl⟩

/-- A slip record writes HBM and its partition (R52). -/
theorem Dev.Work.slipRec (x : Ctx) (core cause start stall ip : Nat) :
    Dev.Work view False c j d (d.slipRec x core cause start stall ip) := by
  refine .of_cores ?_ ?_ ?_ False.elim
  · exact d.slipRec_keeps Dev.cores (fun _ _ _ => rfl) (fun _ _ _ _ => rfl) x core cause start stall ip
  · exact d.slipRec_keeps (fun e => (e.ctx? j).map Ctx.place) (fun _ _ _ => rfl) (fun _ _ _ _ => rfl) x core cause start
      stall ip
  · exact Dev.onlyJobs_of_rest
      (d.slipRec_keeps Dev.rest (fun _ _ _ => rfl) (fun _ _ _ _ => rfl) x core cause start stall ip)

/-- So does a digest record (R327). -/
theorem Dev.Work.digestRec (x : Ctx) (slot entry layer dsum dxor count : Nat) (mismatch : Bool) :
    Dev.Work view False c j d (d.digestRec x slot entry layer dsum dxor count mismatch) := by
  refine .of_cores (d.digestRec_cores x slot entry layer dsum dxor count mismatch) ?_ ?_ False.elim
  · exact d.digestRec_keeps (fun e => (e.ctx? j).map Ctx.place) (fun _ _ _ => rfl) (fun _ _ _ _ => rfl) x slot entry layer
      dsum dxor count mismatch
  · exact Dev.onlyJobs_of_rest
      (d.digestRec_keeps Dev.rest (fun _ _ _ => rfl) (fun _ _ _ _ => rfl) x slot entry layer dsum dxor count mismatch)

end Work

/-! ### The own effects -/

section Effects
variable {c : Nat} {d : Dev} (s : Seat)

/-- What the instructions of the array and the vector engine leave of their core. -/
def Core.engineView (k : Core) := (k.place, k.run.ended)

theorem Dev.work_arrayIssue (t : Nat) (q p : ArrPlan) (win : Bool) :
    Dev.Work Core.engineView True c s.x.entry.id d (d.arrayIssue s c t q p win) := by
  unfold Dev.arrayIssue
  split
  · exact .refl
  · dsimp only
    split
    · exact .trans .modCore .modCtx
    · exact .modCore

theorem Dev.work_winIssue (t w : Nat) (dwc : Bool) :
    Dev.Work Core.engineView True c s.x.entry.id d (d.winIssue s c t w dwc) := by
  unfold Dev.winIssue
  split
  · exact .trans .modCore (Dev.work_arrayIssue s t _ _ true)
  · exact .refl

theorem Dev.work_vecIssue (w t : Nat) : Dev.Work Core.engineView True c s.x.entry.id d (d.vecIssue s c w t) := by
  unfold Dev.vecIssue
  dsimp only
  split
  · exact .trans .violate .modCore
  · exact .modCore

/-- What the instructions whose issue leaves the data path leave of their core. -/
def Core.plainView (k : Core) := (k.place, k.run.ended, k.mem)

theorem Core.plainView_setLen (k : Core) (reg t v p : Nat) :
    Core.plainView { k with run := k.run.setLen reg t v p } = k.plainView := by
  unfold CoreRun.setLen
  split <;> rfl

theorem Dev.work_xferIssue (w t : Nat) (store : Bool) :
    Dev.Work Core.plainView True c s.x.entry.id d (d.xferIssue s c w t store) := by
  unfold Dev.xferIssue
  split
  · exact .refl
  · dsimp only
    refine .trans (.trans ?_ .modCore) .modCore
    split
    · exact .refl
    · exact .violate

theorem Dev.work_cfa (w t : Nat) (f : Waymark → Waymark) (load : Bool) :
    Dev.Work Core.plainView True c s.x.entry.id d (d.cfa s c w t f load) := by
  unfold Dev.cfa
  dsimp only
  refine .trans (.trans ?_ (.putWmk _)) .modCore
  split
  · exact .violate
  · exact .refl

theorem Dev.work_closePoint {α : Type} {view : Core → α} (entry layer dsum dxor count : Nat) (bad : Bool) :
    Dev.Work view False c s.x.entry.id d (d.closePoint s entry layer dsum dxor count bad) := by
  unfold Dev.closePoint
  cases bad
  · exact .digestRec ..
  · exact .trans (.digestRec ..) .violate

theorem Dev.work_closeDigests {α : Type} {view : Core → α} : ∀ (n : Nat) (g : Option DigOpen) (d : Dev),
    Dev.Work view False c s.x.entry.id d (Dev.closeDigests s n g d)
  | 0, _, _ => .refl
  | _ + 1, none, _ => .refl
  | n + 1, some g, _ => .trans (Dev.work_closePoint s g.entry g.layer g.dsum g.dxor g.count true)
      (Dev.work_closeDigests n _ _)

end Effects

/-! ### The rows -/

/-- What an instruction of a row leaves of its core: its stream's end but for END, and but for the rows of the array, the
vector engine and the shadow banks the data path, which DGP and END change in the open digest entry alone. -/
def TileOp.keeps (row : TileOp) (k : Core) :=
  (k.place, if row = .end_ then none else k.run.ended,
    if row.cls = 0 ∨ row.cls = 3 ∨ row.cls = 5 then
      some (if row = .dgp ∨ row = .end_ then { k.mem with dig := none } else k.mem)
    else none)

/-- The own effect of an instruction of a row that issues in ck `t` on core `c`. -/
structure TileOp.Effect (row : TileOp) (c t : Nat) (s : Seat) (b d : Dev) : Prop where
  work : Dev.Work row.keeps (row ≠ .dgp ∧ row ≠ .end_) c s.x.entry.id b d
  ended : row = .end_ → (d.core c).run.ended = some t

section Rows
variable {row : TileOp} {c t : Nat} {s : Seat} {b d : Dev}

theorem TileOp.Effect.of_engine (h : Dev.Work Core.engineView True c s.x.entry.id b d)
    (hrow : row.cls = 1 ∨ row.cls = 2 ∨ row.cls = 4) : row.Effect c t s b d := by
  have hend : row ≠ .end_ := by
    rintro rfl
    simp [TileOp.cls] at hrow
  have hcls : ¬(row.cls = 0 ∨ row.cls = 3 ∨ row.cls = 5) := by omega
  refine ⟨h.mono (fun k k' hk => ?_) fun _ => trivial, fun h' => absurd h' hend⟩
  obtain ⟨hplace, hended⟩ := Prod.mk.injEq .. ▸ hk
  simp only [TileOp.keeps, if_neg hcls, hplace, hended]

theorem TileOp.Effect.of_plain (h : Dev.Work Core.plainView True c s.x.entry.id b d) (hend : row ≠ .end_) :
    row.Effect c t s b d := by
  refine ⟨h.mono (fun k k' hk => ?_) fun _ => trivial, fun h' => absurd h' hend⟩
  simp only [Core.plainView, Prod.mk.injEq] at hk
  obtain ⟨hplace, hended, hmem⟩ := hk
  simp only [TileOp.keeps, hplace, hended, hmem]

end Rows

/-- Each row but GATE is a tile row whose own effect keeps what `TileOp.keeps` says (R247). -/
theorem exec_tileCommand {row : TileOp} (hrow : row ≠ .gate) (c : Nat) (ecc : Ecc) : ∃ name e eff,
    (∀ st, exec (tileCommand row c ecc) st = tileRow name row c e eff st) ∧ (e = ecc ∨ e = Ecc.none) ∧
    ∀ (b : Dev) (s : Seat) (w t : Nat), c < b.cores.length → row.Effect c t s b (eff b s w t) := by
  cases row
  case gate => exact absurd rfl hrow
  case nop | prefix_ | wmw =>
    exact ⟨_, _, _, fun _ => rfl, .inr rfl, fun _ _ _ _ _ => .of_plain .refl (by decide)⟩
  case setlen => exact ⟨_, _, _, fun _ => rfl, .inr rfl, fun _ s w t _ =>
    .of_plain (.modCore fun k => k.plainView_setLen (bits w 32 4) t (setlenVal w s.x.shapes) (bits w 40 17)) (by decide)⟩
  case wms => exact ⟨_, _, _, fun _ => rfl, .inr rfl, fun _ _ _ _ _ => .of_plain .modCtx (by decide)⟩
  case cfaAdd | cfaLoad | cfaInit =>
    exact ⟨_, _, _, fun _ => rfl, .inr rfl, fun _ s w t _ => .of_plain (Dev.work_cfa s w t _ _) (by decide)⟩
  case ldt =>
    exact ⟨_, _, _, fun _ => rfl, .inr rfl, fun _ s w t _ => .of_plain (Dev.work_xferIssue s w t _) (by decide)⟩
  case stt =>
    exact ⟨_, _, _, fun _ => rfl, .inl rfl, fun _ s w t _ => .of_plain (Dev.work_xferIssue s w t _) (by decide)⟩
  case cvt | arith | function | compare | rqnt | softmax | layernorm | nms | reduce | topk =>
    exact ⟨_, _, _, fun _ => rfl, .inl rfl, fun _ s w t _ => .of_engine (Dev.work_vecIssue s w t) (by decide)⟩
  case cnv | dwc =>
    exact ⟨_, _, _, fun _ => rfl, .inl rfl, fun _ s w t _ => .of_engine (Dev.work_winIssue s t w _) (by decide)⟩
  case shl => exact ⟨_, _, _, fun _ => rfl, .inl rfl, fun _ _ _ _ _ => .of_engine .modCore (by decide)⟩
  case mxm =>
    refine ⟨_, _, _, fun _ => rfl, .inl rfl, fun _ s w t _ => .of_engine ?_ (by decide)⟩
    split
    · exact Dev.work_arrayIssue s t _ _ false
    · exact .refl
  case plx =>
    refine ⟨_, _, _, fun _ => rfl, .inl rfl, fun _ s w t _ => .of_engine ?_ (by decide)⟩
    split
    · exact .modCore
    · exact .refl
  case dgp =>
    refine ⟨_, _, _, fun _ => rfl, .inr rfl, fun b s w t _ => ⟨?_, nofun⟩⟩
    dsimp only
    split
    · rename_i g _
      refine Dev.Work.trans ?_ .modCore
      exact (Dev.work_closePoint s g.entry g.layer g.dsum g.dxor g.count (bits w 24 12 != g.entry)).mono
        (fun _ _ h => h) fun h => h.1 rfl
    · exact (Dev.work_closePoint s _ _ 0 0 0 true).mono (fun _ _ h => h) fun h => h.1 rfl
  case end_ =>
    refine ⟨_, _, _, fun _ => rfl, .inr rfl, fun b s w t hc => ⟨?_, fun _ => ?_⟩⟩
    · exact .trans ((Dev.work_closeDigests s _ s.k.mem.dig b).mono (fun _ _ h => h) fun h => h.2 rfl) .modCore
    · exact congrArg (·.run.ended) (Dev.core_modCore_same _ c _ ((Dev.closeDigests_cores s _ s.k.mem.dig b).symm ▸ hc))

end Sys2Proof.Machine
end

section
/-! SUPPORT. The issue of a tile instruction with its frame (R246, R247, R252, R272, R278). -/

namespace Sys2Proof.Machine

open Sys2Proof

section Keeps
variable {row : TileOp} {k k' : Core} (h : row.keeps k' = row.keeps k)
include h

theorem TileOp.place_of_keeps : k'.place = k.place := congrArg Prod.fst h

theorem TileOp.ended_of_keeps (hend : row ≠ .end_) : k'.run.ended = k.run.ended := by
  simpa only [TileOp.keeps, if_neg hend] using congrArg (·.2.1) h

theorem TileOp.mem_of_keeps (hcls : row.cls = 0 ∨ row.cls = 3 ∨ row.cls = 5) :
    k'.mem = { k.mem with dig := k'.mem.dig } := by
  have hmem := congrArg (·.2.2) h
  simp only [TileOp.keeps, if_pos hcls, Option.some.injEq] at hmem
  split at hmem
  · exact congrArg (fun m : CoreMem => { m with dig := k'.mem.dig }) hmem
  · rw [← hmem]

theorem TileOp.dig_of_keeps (hdgp : row ≠ .dgp) (hend : row ≠ .end_) (hcls : row.cls = 0 ∨ row.cls = 3 ∨ row.cls = 5) :
    k'.mem.dig = k.mem.dig := by
  have hmem := congrArg (·.2.2) h
  simp only [TileOp.keeps, if_pos hcls, Option.some.injEq, if_neg (not_or.mpr ⟨hdgp, hend⟩)] at hmem
  rw [hmem]

end Keeps

/-- What the bookkeeping of an issue leaves of its core. -/
def Core.bookView (k : Core) := (k.job, k.slot, k.run.ended, k.mem)

/-- Booking an issue is work on its core; in its planned ck it writes no slip record (R51, R52, R246). -/
theorem Dev.work_book (d : Dev) (s : Seat) (c t plan start cause : Nat) (vxe : Bool) (cls : Nat)
    (pre : Option (Nat × Nat)) :
    Dev.Work Core.bookView (plan = t) c s.x.entry.id d (d.book s c t plan start cause vxe cls pre) := by
  unfold Dev.book
  refine .trans ?_ .modCore
  split
  · rename_i hlate
    have hrec := Dev.Work.slipRec (view := Core.bookView) (c := c) (j := s.x.entry.id) (d := d) s.x c cause
      (s.x.localCk start) (t - plan) s.k.run.ip
    exact .trans (hrec.mono (fun _ _ h => h) fun h => by omega) .modCore
  · exact .refl

end Sys2Proof.Machine

namespace Sys2Proof
open Machine

/-- A row that issues completes with its effect on a device `b` where the issue is booked: the core's stream stands one
instruction further, at this ck (R246, R278). -/
theorem Issuing.completes_place {st : State} {row : TileOp} {c : Nat} {s : Seat} {w t plan : Nat}
    (h : Issuing st.dev row c s w t plan) (name : String) {ecc : Ecc} (hecc : ecc.uncorrectable = false)
    (eff : Dev → Seat → Nat → Nat → Dev) :
    ∃ b, tileRow name row c ecc eff st = .next (st.withDev (eff b (s.counted ecc.corrected) w t)) ∧ c < b.cores.length ∧
      Dev.Work Core.bookView (plan = t) c s.x.entry.id (Reached st.dev c t) b ∧
      (b.core c).place = (s.k.job, s.k.slot, s.k.run.ip + 1, some t, s.k.run.slip + (t - plan),
        (if row = .prefix_ then some (bits w 24 20, bits w 44 20) else none), none) := by
  obtain ⟨start, cause, vxe, heq⟩ := h.completes name ecc hecc eff
  refine ⟨_, heq, ?_⟩
  obtain ⟨-, hlen, hk⟩ := h.ctx
  obtain ⟨-, hgate, -⟩ := h.standing
  generalize (if row = TileOp.prefix_ then some (bits w 24 20, bits w 44 20) else none) = pre
  have hclen : c < ((Reached st.dev c t).counted c ecc.corrected).cores.length := by
    simpa [Dev.counted, modAt_length] using hlen
  have hcore : ((Reached st.dev c t).counted c ecc.corrected).core c = (s.counted ecc.corrected).k := by
    rw [Dev.counted, Dev.core_modCore_same _ _ _ hlen, ← hk]
    rfl
  have hwork := ((Reached st.dev c t).counted c ecc.corrected).work_book (s.counted ecc.corrected) c t plan start cause vxe
    row.cls pre
  have hrun := ((Reached st.dev c t).counted c ecc.corrected).book_run (s.counted ecc.corrected) t plan start cause vxe
    row.cls pre hclen
  have hview := hwork.core
  rw [hcore] at hrun hview
  simp only [Core.bookView, Prod.mk.injEq] at hview
  obtain ⟨hjob, hslot, -, -⟩ := hview
  refine ⟨(Dev.book_keeps _ _ _ _ _ _ _ _ _ _).2.2.1.symm ▸ hclen, .trans .modCore hwork, ?_⟩
  have hissued : ((s.counted ecc.corrected).k.run.issued t (t - plan) row.cls pre).gate = none := hgate
  simp only [Core.place, hjob, hslot, hrun, hissued]
  rfl

/-- Settles O41: the issue is booked on the core, and the row's own effect leaves what the booking set. -/
theorem tileInstructionsIssue : Obligations.TileInstructionsIssue := by
  intro row c ecc st s w t plan hrow hecc h
  obtain ⟨name, e, eff, hexec, he, heff⟩ := exec_tileCommand hrow c ecc
  have hcorr : e.uncorrectable = false := by
    rcases he with rfl | rfl
    · exact hecc
    · rfl
  obtain ⟨b, heq, hlt, hbook, hplace⟩ := h.completes_place name hcorr eff
  obtain ⟨hwork, hend⟩ := heff b (s.counted e.corrected) w t hlt
  refine .of_eq ((hexec st).trans heq) ?_
  generalize eff b (s.counted e.corrected) w t = d at hwork hend
  obtain ⟨hctx, -, hk⟩ := h.ctx
  obtain ⟨hended, -, hnow⟩ := h.standing
  have hview := hbook.core
  rw [← hk] at hview
  simp only [Core.bookView, Prod.mk.injEq] at hview
  obtain ⟨-, -, hbended, hbmem⟩ := hview
  have hdplace := (TileOp.place_of_keeps hwork.core).trans hplace
  simp only [Core.place, Prod.mk.injEq] at hdplace
  obtain ⟨hjob, hslot, hip, hlast, hslip, hpre, hgate⟩ := hdplace
  have hdctx := hwork.job.trans hbook.job
  rw [hctx, Option.map_some] at hdctx
  obtain ⟨y, hy, hyplace⟩ := Option.map_eq_some_iff.mp hdctx
  simp only [Ctx.place, Prod.mk.injEq] at hyplace
  obtain ⟨hyentry, hynow, hycores, hyst, hyattempt⟩ := hyplace
  refine ⟨hip, hlast, hslip, hpre, ?_, hgate, hjob, hslot, fun hcls => ?_, fun hdgp hne hcls => ?_,
    ⟨y, hy, hyentry, hynow.trans hnow, hycores, hyst, hyattempt⟩,
    fun o ho => (hwork.others o ho).trans (hbook.others o ho), ?_, fun hplan hdgp hne => ?_⟩
  · split
    · exact hend ‹_›
    · exact (TileOp.ended_of_keeps hwork.core ‹_›).trans (hbended.trans hended)
  · exact hbmem ▸ TileOp.mem_of_keeps hwork.core hcls
  · exact hbmem ▸ TileOp.dig_of_keeps hwork.core hdgp hne hcls
  · exact ((st.dev.onlyJobs_advance _ t).trans hbook.onlyJobs).trans hwork.onlyJobs
  · obtain ⟨hmem, hparts⟩ := hwork.stays ⟨hdgp, hne⟩
    obtain ⟨hbm, hbp⟩ := hbook.stays hplan
    exact ⟨hmem.trans hbm, hparts.trans hbp⟩

end Sys2Proof
end
